-- ==== Sys2Proof/Word.lean ====
section
/-!
DEFINITION. The word and the byte of the MD4 compression block MD4CB (spec/00_scope.md R7, R10).
Every register holds one unsigned 32-bit word and `+`, `-` on words wrap modulo 2^32, which is
`BitVec 32` arithmetic; bit 0 is the least significant bit (R10).
-/

namespace Sys2Proof

/-- R7, R10: a word is an unsigned 32-bit value. -/
abbrev Word := BitVec 32

/-- R35: a byte of a block or of a serialized state. -/
abbrev Byte := BitVec 8

/-- A four-word register group written out index by index; R12: index 0 is a, 1 is b, 2 is c, 3 is d. -/
def vec4 {α : Type} (f : Fin 4 → α) : Vector α 4 := #v[f 0, f 1, f 2, f 3]

/-- A sixteen-entry register file written out index by index (R16, R17). -/
def vec16 {α : Type} (f : Fin 16 → α) : Vector α 16 :=
  #v[f 0, f 1, f 2, f 3, f 4, f 5, f 6, f 7, f 8, f 9, f 10, f 11, f 12, f 13, f 14, f 15]

/-- The indices 0..15 in increasing order: R60's and R90's `for k in 0..15`. -/
def steps16 : List (Fin 16) := [0, 1, 2, 3, 4, 5, 6, 7, 8, 9, 10, 11, 12, 13, 14, 15]

/-- The indices 0..3 in increasing order. -/
def steps4 : List (Fin 4) := [0, 1, 2, 3]

end Sys2Proof
end

