-- ==== Sys2Proof/Syntax.lean ====
section
/-!
DEFINITION. The commands of the block as syntax: one constructor for each of the 21 rows of
spec/30_encoding.md R48 (spec/opcode_table.json). A command's operands are the fields of the command word
that it uses (R43, R45, R51); every other operand is a register read at execution (R46).
-/

namespace Sys2Proof

/-- R48: the legal commands. `s` is SH (R43: 0..31), `k` and `j` are IDX (R45). For CT_LOOKUP.A5 and
CT_LOOKUP.D5 the field is as wide as IDX and the range 0..4 is a check (WellFormed.lean). -/
inductive Instr where
  | nop
  | compress
  | seed
  | capture
  | loadIv
  | fwdF (s : Fin 32)
  | fwdG (s : Fin 32)
  | fwdH (s : Fin 32)
  | invF (s : Fin 32)
  | invG (s : Fin 32)
  | invH (s : Fin 32)
  | ctLookupR1 (k : Fin 16)
  | ctLookupA5 (j : Fin 16)
  | ctLookupD5 (j : Fin 16)
  | ctApplyR1 (k : Fin 16)
  | ctApplyA5
  | ctApplyD5
  | r1Step (k : Fin 16)
  | r1All
  | a5Correct
  | d5Correct
  deriving DecidableEq, Repr

end Sys2Proof
end

