-- ==== Sys2Proof/WellFormed.lean ====
section
/-!
DEFINITION. Which commands are well-formed: the extra constraint of spec/30_encoding.md R48 (IDX ≤ 4 for
CT_LOOKUP.A5 and CT_LOOKUP.D5). The other ranges of R43 and R45 hold by the types of Syntax.lean.
-/

namespace Sys2Proof

/-- R45, R48: the index of CT_LOOKUP.A5 and CT_LOOKUP.D5 is in 0..4; nothing else is checked. -/
def Instr.wf : Instr → Bool
  | .nop | .compress | .seed | .capture | .loadIv => true
  | .fwdF _ | .fwdG _ | .fwdH _ | .invF _ | .invG _ | .invH _ => true
  | .ctLookupR1 _ => true
  | .ctLookupA5 j => decide (j.val ≤ 4)
  | .ctLookupD5 j => decide (j.val ≤ 4)
  | .ctApplyR1 _ | .ctApplyA5 | .ctApplyD5 => true
  | .r1Step _ | .r1All | .a5Correct | .d5Correct => true

end Sys2Proof
end

