-- ==== Sys2Proof/Decode.lean ====
section
/-!
DEFINITION. The command word (spec/30_encoding.md): its fields (R42), the decoder (R49), the map of legal
commands (R48), the encoder (R52's `enc`, the inverse of R49), and the assembler (R51).
-/

namespace Sys2Proof

/-! ### R42: the fields of the one format CW -/

/-- R42: OP, bits 7:0. -/
def opField (c : Word) : BitVec 8 := c.extractLsb' 0 8
/-- R42, R43: SH, bits 12:8. -/
def shField (c : Word) : BitVec 5 := c.extractLsb' 8 5
/-- R42: RSV1, bits 15:13. -/
def rsv1Field (c : Word) : BitVec 3 := c.extractLsb' 13 3
/-- R42, R44: RND, bits 17:16. -/
def rndField (c : Word) : BitVec 2 := c.extractLsb' 16 2
/-- R42, R45: TBL, bits 19:18. -/
def tblField (c : Word) : BitVec 2 := c.extractLsb' 18 2
/-- R42, R45: IDX, bits 23:20. -/
def idxField (c : Word) : BitVec 4 := c.extractLsb' 20 4
/-- R42: RSV2, bits 31:24. -/
def rsv2Field (c : Word) : BitVec 8 := c.extractLsb' 24 8

/-- R43: the rotation amount that SH holds. -/
def shiftOfField (sh : BitVec 5) : Fin 32 := Fin.ofNat 32 sh.toNat
/-- R45: the index that IDX holds. -/
def indexOfField (idx : BitVec 4) : Fin 16 := Fin.ofNat 16 idx.toNat

/-! ### R49: decoding, total on every word -/

/-- R49, first case: a command that uses none of SH, RND, TBL and IDX; all four must be 0. -/
def decodePlain (i : Instr) (sh : BitVec 5) (rnd tbl : BitVec 2) (idx : BitVec 4) : Option Instr :=
  if sh = 0 ∧ rnd = 0 ∧ tbl = 0 ∧ idx = 0 then some i else none

/-- R49, second case: FWD and INV; RND selects the round (R44) and 0 is reserved; TBL and IDX must be 0. -/
def decodeStep (f g h : Instr) (rnd tbl : BitVec 2) (idx : BitVec 4) : Option Instr :=
  if tbl = 0 ∧ idx = 0 then
    if rnd = 1 then some f
    else if rnd = 2 then some g
    else if rnd = 3 then some h
    else none
  else none

/-- R49: CT_LOOKUP. TBL = 3 is reserved (R45), and IDX ≤ 4 when TBL is 1 or 2. -/
def decodeLookup (sh : BitVec 5) (rnd tbl : BitVec 2) (idx : BitVec 4) : Option Instr :=
  if sh = 0 ∧ rnd = 0 then
    if tbl = 0 then some (.ctLookupR1 (indexOfField idx))
    else if tbl = 1 ∧ idx.toNat ≤ 4 then some (.ctLookupA5 (indexOfField idx))
    else if tbl = 2 ∧ idx.toNat ≤ 4 then some (.ctLookupD5 (indexOfField idx))
    else none
  else none

/-- R49: CT_APPLY. IDX must be 0 when TBL is 1 or 2. -/
def decodeApply (sh : BitVec 5) (rnd tbl : BitVec 2) (idx : BitVec 4) : Option Instr :=
  if sh = 0 ∧ rnd = 0 then
    if tbl = 0 then some (.ctApplyR1 (indexOfField idx))
    else if tbl = 1 ∧ idx = 0 then some .ctApplyA5
    else if tbl = 2 ∧ idx = 0 then some .ctApplyD5
    else none
  else none

/-- R49: R1_STEP. -/
def decodeR1Step (sh : BitVec 5) (rnd tbl : BitVec 2) (idx : BitVec 4) : Option Instr :=
  if sh = 0 ∧ rnd = 0 ∧ tbl = 0 then some (.r1Step (indexOfField idx)) else none

/-- R49: the choice by OP, once the reserved fields are known to be 0. -/
def decodeFields (op : BitVec 8) (sh : BitVec 5) (rnd tbl : BitVec 2) (idx : BitVec 4) : Option Instr :=
  if op = 0x00 then decodePlain .nop sh rnd tbl idx
  else if op = 0x01 then decodePlain .compress sh rnd tbl idx
  else if op = 0x02 then decodePlain .seed sh rnd tbl idx
  else if op = 0x03 then decodePlain .capture sh rnd tbl idx
  else if op = 0x04 then decodePlain .loadIv sh rnd tbl idx
  else if op = 0x10 then
    decodeStep (.fwdF (shiftOfField sh)) (.fwdG (shiftOfField sh)) (.fwdH (shiftOfField sh)) rnd tbl idx
  else if op = 0x11 then
    decodeStep (.invF (shiftOfField sh)) (.invG (shiftOfField sh)) (.invH (shiftOfField sh)) rnd tbl idx
  else if op = 0x20 then decodeLookup sh rnd tbl idx
  else if op = 0x21 then decodeApply sh rnd tbl idx
  else if op = 0x30 then decodeR1Step sh rnd tbl idx
  else if op = 0x31 then decodePlain .r1All sh rnd tbl idx
  else if op = 0x32 then decodePlain .a5Correct sh rnd tbl idx
  else if op = 0x33 then decodePlain .d5Correct sh rnd tbl idx
  else none

/-- R49: `decode(cmd)`. `none` is the spec's `Illegal` (R50): every word the map of R48 does not hold. -/
def decode (c : Word) : Option Instr :=
  if rsv1Field c ≠ 0 ∨ rsv2Field c ≠ 0 then none
  else decodeFields (opField c) (shField c) (rndField c) (tblField c) (idxField c)

/-- The instruction the decoder reads from a command word of `nbits` bits. A command is one 32-bit word
(R42), so bit 0 of the table is bit 0 of the word; a number that needs more than 32 bits is no command. -/
def decodeTableWord (nbits w : Nat) : Option Instr :=
  let v := w % 2 ^ nbits
  if v < 2 ^ 32 then decode (BitVec.ofNat 32 v) else none

/-! ### The encoder: the inverse of R49, from the rows of R48 -/

/-- R42: the word with the given OP, SH, RND, TBL and IDX, and with RSV1 = RSV2 = 0. -/
def commandWord (op : BitVec 8) (sh : Fin 32) (rnd tbl : BitVec 2) (idx : Fin 16) : Word :=
  op.setWidth 32 ||| (BitVec.ofNat 32 sh.val <<< 8) ||| (rnd.setWidth 32 <<< 16)
    ||| (tbl.setWidth 32 <<< 18) ||| (BitVec.ofNat 32 idx.val <<< 20)

/-- R48, R52: `enc`. -/
def encode : Instr → Word
  | .nop          => commandWord 0x00 0 0 0 0
  | .compress     => commandWord 0x01 0 0 0 0
  | .seed         => commandWord 0x02 0 0 0 0
  | .capture      => commandWord 0x03 0 0 0 0
  | .loadIv       => commandWord 0x04 0 0 0 0
  | .fwdF s       => commandWord 0x10 s 1 0 0
  | .fwdG s       => commandWord 0x10 s 2 0 0
  | .fwdH s       => commandWord 0x10 s 3 0 0
  | .invF s       => commandWord 0x11 s 1 0 0
  | .invG s       => commandWord 0x11 s 2 0 0
  | .invH s       => commandWord 0x11 s 3 0 0
  | .ctLookupR1 k => commandWord 0x20 0 0 0 k
  | .ctLookupA5 j => commandWord 0x20 0 0 1 j
  | .ctLookupD5 j => commandWord 0x20 0 0 2 j
  | .ctApplyR1 k  => commandWord 0x21 0 0 0 k
  | .ctApplyA5    => commandWord 0x21 0 0 1 0
  | .ctApplyD5    => commandWord 0x21 0 0 2 0
  | .r1Step k     => commandWord 0x30 0 0 0 k
  | .r1All        => commandWord 0x31 0 0 0 0
  | .a5Correct    => commandWord 0x32 0 0 0 0
  | .d5Correct    => commandWord 0x33 0 0 0 0

/-! ### R48: the map of legal commands as the spec tabulates it -/

/-- One row of R48: `(cmd & mask) == pattern`, and IDX ≤ `idxMax` where the row has that constraint. -/
structure OpcodeRow where
  mnemonic : String
  pattern  : Word
  mask     : Word
  idxMax   : Option Nat
  deriving DecidableEq, Repr

/-- R48: a word matches a row. -/
def OpcodeRow.holds (r : OpcodeRow) (c : Word) : Bool :=
  (c &&& r.mask == r.pattern) &&
    (match r.idxMax with
     | none => true
     | some m => decide ((idxField c).toNat ≤ m))

/-- R48, rows NOP to INV.H. -/
def opcodeRowsCore : List OpcodeRow :=
  [⟨"NOP",      0x00000000, 0xFFFFFFFF, none⟩,
   ⟨"COMPRESS", 0x00000001, 0xFFFFFFFF, none⟩,
   ⟨"SEED",     0x00000002, 0xFFFFFFFF, none⟩,
   ⟨"CAPTURE",  0x00000003, 0xFFFFFFFF, none⟩,
   ⟨"LOAD_IV",  0x00000004, 0xFFFFFFFF, none⟩,
   ⟨"FWD.F",    0x00010010, 0xFFFFE0FF, none⟩,
   ⟨"FWD.G",    0x00020010, 0xFFFFE0FF, none⟩,
   ⟨"FWD.H",    0x00030010, 0xFFFFE0FF, none⟩,
   ⟨"INV.F",    0x00010011, 0xFFFFE0FF, none⟩,
   ⟨"INV.G",    0x00020011, 0xFFFFE0FF, none⟩,
   ⟨"INV.H",    0x00030011, 0xFFFFE0FF, none⟩]

/-- R48, rows CT_LOOKUP.R1 to D5_CORRECT. -/
def opcodeRowsTables : List OpcodeRow :=
  [⟨"CT_LOOKUP.R1", 0x00000020, 0xFF0FFFFF, none⟩,
   ⟨"CT_LOOKUP.A5", 0x00040020, 0xFF0FFFFF, some 4⟩,
   ⟨"CT_LOOKUP.D5", 0x00080020, 0xFF0FFFFF, some 4⟩,
   ⟨"CT_APPLY.R1",  0x00000021, 0xFF0FFFFF, none⟩,
   ⟨"CT_APPLY.A5",  0x00040021, 0xFFFFFFFF, none⟩,
   ⟨"CT_APPLY.D5",  0x00080021, 0xFFFFFFFF, none⟩,
   ⟨"R1_STEP",      0x00000030, 0xFF0FFFFF, none⟩,
   ⟨"R1_ALL",       0x00000031, 0xFFFFFFFF, none⟩,
   ⟨"A5_CORRECT",   0x00000032, 0xFFFFFFFF, none⟩,
   ⟨"D5_CORRECT",   0x00000033, 0xFFFFFFFF, none⟩]

/-- R48: the complete map of legal commands. -/
def opcodeRows : List OpcodeRow := opcodeRowsCore ++ opcodeRowsTables

/-! ### R51: the assembler -/

/-- The mnemonic of a command, as R48 spells it. -/
def Instr.mnemonic : Instr → String
  | .nop => "NOP"
  | .compress => "COMPRESS"
  | .seed => "SEED"
  | .capture => "CAPTURE"
  | .loadIv => "LOAD_IV"
  | .fwdF _ => "FWD.F"
  | .fwdG _ => "FWD.G"
  | .fwdH _ => "FWD.H"
  | .invF _ => "INV.F"
  | .invG _ => "INV.G"
  | .invH _ => "INV.H"
  | .ctLookupR1 _ => "CT_LOOKUP.R1"
  | .ctLookupA5 _ => "CT_LOOKUP.A5"
  | .ctLookupD5 _ => "CT_LOOKUP.D5"
  | .ctApplyR1 _ => "CT_APPLY.R1"
  | .ctApplyA5 => "CT_APPLY.A5"
  | .ctApplyD5 => "CT_APPLY.D5"
  | .r1Step _ => "R1_STEP"
  | .r1All => "R1_ALL"
  | .a5Correct => "A5_CORRECT"
  | .d5Correct => "D5_CORRECT"

/-- R51: the immediate that the assembler line of a command carries: s, k or j, or none. -/
def Instr.immediate : Instr → Option Nat
  | .fwdF s | .fwdG s | .fwdH s | .invF s | .invG s | .invH s => some s.val
  | .ctLookupR1 k | .ctApplyR1 k | .r1Step k => some k.val
  | .ctLookupA5 j | .ctLookupD5 j => some j.val
  | .nop | .compress | .seed | .capture | .loadIv => none
  | .r1All | .a5Correct | .d5Correct | .ctApplyA5 | .ctApplyD5 => none

/-- R51: the commands that take no operand. -/
def plainCommands : List Instr :=
  [.nop, .compress, .seed, .capture, .loadIv, .r1All, .a5Correct, .d5Correct, .ctApplyA5, .ctApplyD5]

/-- R51: the commands that take the rotation amount `#s`. -/
def shiftCommands : List (Fin 32 → Instr) := [.fwdF, .fwdG, .fwdH, .invF, .invG, .invH]

/-- R51: the commands that take `#k` in 0..15. -/
def indexCommands : List (Fin 16 → Instr) := [.ctLookupR1, .ctApplyR1, .r1Step]

/-- R51: the commands that take `#j` in 0..4. -/
def tripleCommands : List (Fin 16 → Instr) := [.ctLookupA5, .ctLookupD5]

/-- R51: one line `MNEMONIC [#imm]`, as its mnemonic and its immediate. An immediate outside the range of
its command, a missing or a superfluous one, is refused and never truncated. -/
def assemble (m : String) (imm : Option Nat) : Option Instr :=
  match imm with
  | none => plainCommands.find? (fun i => i.mnemonic == m)
  | some n =>
    if n < 32 then
      match shiftCommands.find? (fun f => (f 0).mnemonic == m) with
      | some f => some (f (Fin.ofNat 32 n))
      | none =>
        if n < 16 then
          match indexCommands.find? (fun f => (f 0).mnemonic == m) with
          | some f => some (f (Fin.ofNat 16 n))
          | none =>
            if n ≤ 4 then
              (tripleCommands.find? (fun f => (f 0).mnemonic == m)).map (fun f => f (Fin.ofNat 16 n))
            else none
        else none
    else none

end Sys2Proof
end

