-- ==== Sys2Proof/Config.lean ====
section
/-!
DEFINITION. What a configuration of the block fixes: the constraint tables CTAB (spec/00_scope.md R8,
spec/43_constraint_tables.md R76 to R78), and the width of the host's byte count (R98).
The contents of CTAB are a parameter (R8, D9): here an opaque constant about which nothing can be proved
but that it is well-formed.
-/

namespace Sys2Proof

/-- R76: a BitCondition. Code 3 does not exist (spec/93_implementation_defined.md section 2). -/
inductive BitCondition where
  | forceZero
  | forceOne
  | equalToReference
  deriving DecidableEq, Repr, Inhabited

/-- R77: one (bit index, BitCondition) pair of a round-1 entry. -/
structure BitRule where
  bit  : Fin 32
  cond : BitCondition
  deriving DecidableEq, Repr, Inhabited

/-- R78: one (bit, cond, ref) triple of a round-2 table; `ref` 0..3 names a, b, c, d. -/
structure RefRule where
  bit  : Fin 32
  cond : BitCondition
  ref  : Fin 4
  deriving DecidableEq, Repr, Inhabited

/-- R8, R24: the constraint tables: 16 round-1 entries, and 5 triples each for a5 and d5. -/
structure CTab where
  r1 : Vector (List BitRule) 16
  a5 : Vector RefRule 5
  d5 : Vector RefRule 5
  deriving DecidableEq, Repr

/-- R8 (i): no bit appears twice within one round-1 entry. -/
abbrev bitsDistinct (e : List BitRule) : Prop := (e.map (·.bit)).Nodup

/-- R8 (i): no bit appears twice within a round-2 table. -/
abbrev refBitsDistinct (t : Vector RefRule 5) : Prop := (t.toList.map (·.bit)).Nodup

/-- R8: CTAB is well-formed. Its ranges (bit in 0..31, ref in 0..3, the three conditions) hold by the types;
the raw form in which they can fail is `RawCTab` (Machine/Configure.lean). -/
abbrev CTab.wf (c : CTab) : Prop :=
  (∀ e ∈ c.r1.toList, bitsDistinct e) ∧ refBitsDistinct c.a5 ∧ refBitsDistinct c.d5

namespace Config

/-- Five triples with five bits, used only to show that a well-formed table exists; no step reads it. -/
def someTriples : Vector RefRule 5 :=
  #v[⟨0, .forceZero, 0⟩, ⟨1, .forceZero, 0⟩, ⟨2, .forceZero, 0⟩, ⟨3, .forceZero, 0⟩, ⟨4, .forceZero, 0⟩]

/-- A well-formed table paired with the proof (R8: a configuration that is not well-formed is refused).
The default value only shows that the type has a member. -/
structure WfCTab where
  tab : CTab := ⟨vec16 fun _ => [], someTriples, someTriples⟩
  wf  : tab.wf := by decide
  deriving Inhabited

/-- R8, D9: the configuration parameter CTAB, OPEN. Opaque: no statement can use its contents
(assumption log 1). -/
opaque ctab : WfCTab

/-- R98, D24: the width of the Message Buffer's cumulative byte count, which the spec leaves unspecified.
Opaque (assumption log 6). -/
opaque byteCountWidth : Nat

end Config

end Sys2Proof
end

