-- ==== Sys2Proof/Machine/State.lean ====
section
/-!
DEFINITION. The state of one instance of the block (spec/10_state.md) and of the host that drives it
(spec/45_host_procedures.md R96: one host per instance), the reasons a step can stop (spec/60_exceptions.md
R111), and the state after reset (spec/70_reset_and_hazards.md R119).
-/

namespace Sys2Proof.Machine

/-! ### The block's registers -/

/-- R14 to R22, R28: the name of a register of the block. -/
inductive Reg where
  | cmd
  | status
  | s (n : Fin 4)
  | i (n : Fin 4)
  | w (j : Fin 16)
  | ch (k : Fin 16)
  | opA
  | opB
  | opC
  | opD
  | opM
  | res
  | lk0
  | lk1
  | lk2
  deriving DecidableEq, Repr

/-- R23: a register that has a hidden written mark, with its value. A command or a host read never sees the
value under a clear mark. -/
structure Marked where
  val     : Word
  written : Bool
  deriving DecidableEq, Repr

/-- R23: what a host write or a command write of `v` leaves: the value, with the mark set. -/
def Marked.of (v : Word) : Marked := ⟨v, true⟩

/-- R119, R120: an unwritten register. Its value is unspecified; the zero here is never read
(assumption log 2). -/
def Marked.unwritten : Marked := ⟨0, false⟩

/-! ### The host's side (R52, R96 to R110) -/

/-- R12, R29, R52: one host access at an offset from BASE, of `width` bits. `claim` is the value that a
statement `RD <reg> = <imm32>` says the read must return. -/
inductive Access where
  | read (width off : Nat) (claim : Option Word)
  | write (width off : Nat) (v : Word)
  deriving DecidableEq, Repr

/-- One request to the host, taken in order: a host program (R52, R127) or one of its procedures (R98, R99, R100,
R106, R108, R110). -/
inductive Job where
  | program (accesses : List Access)  -- R52, R127: a host program, as the accesses it stands for
  | startMessage                      -- R98: LOAD_IV before the first ingest, with an empty Message Buffer
  | ingest (bytes : List Byte)        -- R98
  | finalize                          -- R99
  | capture                           -- R100
  | writeInit (x : Vector Word 4)     -- R108: host writes of the init that the workers of a search share
  | find (group : Option Nat)         -- R106; with R108, the number of the parallel search it is part of
  | ioFault                           -- R110: a caller-layer fault; never done, so it records the fault from then on
  deriving DecidableEq, Repr

/-- Where the host stands in a trial of `find` when it next acts (R101 to R105), with the values it carries. -/
inductive Phase where
  | generate                                        -- R101: SEED comes next
  | modify                                          -- R101, R102, R103: the draws and the modification come next
  | derive                                          -- R103: W has been read back
  | rewrite (block1 : Vector Word 16)               -- R105 step 1 done: H1 has been read
  | compare (block1 block2 : Vector Word 16) (h1 : Vector Word 4)  -- R105 step 3 done: H2 has been read
  deriving DecidableEq, Repr

/-- R99, D25: the parameter EMPTY_PREFIX_PAD in 0 or 64. -/
inductive EmptyPrefixPad where
  | pad0
  | pad64
  deriving DecidableEq, Repr

/-- How a search ended (R106, R107, R108). -/
inductive SearchResult where
  | found (block1 block2 : Vector Word 16)
  | budgetSpent
  | cancelled
  deriving DecidableEq, Repr

/-- The host of one instance (R96): the accesses it has still to issue, what its reads returned, its
requests, the Message Buffer (R98), its random words (R97), its parameters and its results. -/
structure Driver where
  pending        : List Access          -- R37, R52: host accesses in the order the host issues them
  readLog        : List Word            -- R127: the values its reads returned, newest first
  claimFailed    : Bool                 -- R52: some `RD <reg> = <imm32>` returned another value
  inProgram      : Bool                 -- R127: what the host does is a host program's (assumption log 28)
  jobs           : List Job             -- requests still to serve, in order
  phase          : Phase                -- where the trial stands
  buffer         : List Byte            -- R98: the accumulation buffer, fewer than 64 bytes
  byteCount      : Nat                  -- R98: the cumulative byte count, wrapping
  ingested       : Bool                 -- R99: at least one byte was ingested
  rand           : List Word            -- R97: the words RAND has still to give
  emptyPrefixPad : EmptyPrefixPad       -- R99: parameter, default 0
  trialBudget    : Option Nat           -- R107: parameter TRIAL_BUDGET, default none
  trials         : Nat                  -- R107: failed trials of this search
  cancelRequests : List Nat             -- R108: the parallel searches in which another worker has succeeded
  zeroPadding    : Option (List Byte)   -- R99: what finalize returned
  result         : Option SearchResult  -- R106: what find returned
  deriving DecidableEq, Repr

/-! ### The machine -/

/-- R14 to R25: one block instance with its host. The register fields have the spec's names. -/
structure State where
  S      : Vector Word 4      -- R14: chaining state
  I      : Vector Word 4      -- R15: init state
  W      : Vector Marked 16   -- R16: message words
  CH     : Vector Marked 16   -- R17: round-1 chain
  OPA    : Marked             -- R18
  OPB    : Marked             -- R18
  OPC    : Marked             -- R18
  OPD    : Marked             -- R18
  OPM    : Marked             -- R18
  RES    : Marked             -- R19
  LK0    : Marked             -- R20
  LK1    : Marked             -- R20
  LK2    : Marked             -- R20
  CMD    : Word               -- R21
  ILL    : Bool               -- R22: STATUS bit 0; bits 31:1 read as 0 and hold nothing
  CTAB   : CTab               -- R24: constant
  driver : Driver             -- R96
  deriving DecidableEq, Repr

/-- Why a run stops with a fault (R111: "fault"). A faulting step writes no state (R12). -/
inductive Fault where
  /-- R23, R120: a command or a host read reads registers whose written mark is clear; all of them are named
  (assumption log 3). Raised by every command that reads a marked register, and by a host read. Safe: on
  hardware the value would be unspecified. -/
  | unwrittenRead (rs : List Reg)
  /-- R97: RAND has no further word for the 16 draws of a trial. Raised by the host's `find`. Safe: the spec
  aborts the search. -/
  | randomnessExhausted
  deriving DecidableEq, Repr

/-- Why a request has no meaning (R111: "refuse"). -/
inductive Refusal where
  /-- An instruction of the table whose meaning is not written. Raised by exec's arm only. Safe. -/
  | notModelled (mnemonic : String)
  /-- R29: a host access that is not 32 bits wide or not at a multiple of 4. Raised by a host access. Safe. -/
  | misalignedOrNarrowAccess
  /-- R30: a host access to a reserved offset of R28. Raised by a host access. Safe. -/
  | reservedOffset
  /-- R32: a host write to RES, LK0, LK1 or LK2. Raised by a host access. Safe. -/
  | readOnlyWrite
  /-- R30: an access outside offsets 0x00..0xFF is not an access to this block; what it reaches is the
  platform's concern, and the spec does not say. Raised by a host access (assumption log 7). Safe. -/
  | outsideWindow
  /-- R8, D35: a configuration whose CTAB is not well-formed. Raised by `configure`, when the model is made,
  never by a step. Safe. -/
  | illFormedCtab
  deriving DecidableEq, Repr

/-! ### Reset -/

/-- R14: the MD4 initial constants, `IV`. -/
def IV : Vector Word 4 := #v[0x67452301, 0xEFCDAB89, 0x98BADCFE, 0x10325476]

/-- A host that has been asked for nothing: no access pending, no request, no random word, an empty Message
Buffer, and the parameters at the defaults the spec gives (D25, D28). Assumption log 4. -/
def Driver.idle : Driver where
  pending := []
  readLog := []
  claimFailed := false
  inProgram := false
  jobs := []
  phase := .generate
  buffer := []
  byteCount := 0
  ingested := false
  rand := []
  emptyPrefixPad := .pad0
  trialBudget := none
  trials := 0
  cancelRequests := []
  zeroPadding := none
  result := none

/-- R119: the state after reset of an instance configured with the tables `t`, which reset leaves unchanged. -/
def State.resetWith (t : CTab) : State where
  S := IV
  I := IV
  W := vec16 fun _ => .unwritten
  CH := vec16 fun _ => .unwritten
  OPA := .unwritten
  OPB := .unwritten
  OPC := .unwritten
  OPD := .unwritten
  OPM := .unwritten
  RES := .unwritten
  LK0 := .unwritten
  LK1 := .unwritten
  LK2 := .unwritten
  CMD := 0x00000000
  ILL := false
  CTAB := t
  driver := Driver.idle

/-- R119: the state after reset, with the configuration's CTAB (R8, opaque). -/
def State.reset : State := State.resetWith Config.ctab.tab

end Sys2Proof.Machine
end

