-- ==== Sys2Proof/Machine/Ops.lean ====
section
/-!
DEFINITION. The named operations over the block's state: rotation (spec/00_scope.md R11), reading and writing
registers with their written marks (spec/10_state.md R23), the check made before a command runs (R26), and the
one exception IllegalCommand with the host's return from it (spec/60_exceptions.md R112, R115).
-/

namespace Sys2Proof.Machine

open Host (Outcome)

/-! ### R11: rotation -/

/-- R11: `rotl(x, s)`; a shift of 0 is the identity. -/
def rotl (x : Word) (s : Fin 32) : Word :=
  if s = 0 then x else (x <<< s.val) ||| (x >>> (32 - s.val))

/-- R11: `rotr(x, s)`; a shift of 0 is the identity. -/
def rotr (x : Word) (s : Fin 32) : Word :=
  if s = 0 then x else (x >>> s.val) ||| (x <<< (32 - s.val))

/-- R10: the word with only bit `n` set. -/
def bitMask (n : Fin 32) : Word := 1#32 <<< n.val

/-! ### Writing registers: a command write sets the mark (R23) -/

namespace State

/-- R12, R14: `S[n] <- v`. -/
def setS (s : State) (n : Fin 4) (v : Word) : State := { s with S := s.S.set n v }
/-- R14: all four words of S at once. -/
def setChain (s : State) (x : Vector Word 4) : State := { s with S := x }
/-- R15: all four words of I at once. -/
def setInit (s : State) (x : Vector Word 4) : State := { s with I := x }
/-- R12, R15: `I[n] <- v`. -/
def setI (s : State) (n : Fin 4) (v : Word) : State := { s with I := s.I.set n v }
/-- R12, R16: `W[j] <- v`. -/
def setW (s : State) (j : Fin 16) (v : Word) : State := { s with W := s.W.set j (.of v) }
/-- R12, R17: `CH[k] <- v`. -/
def setCH (s : State) (k : Fin 16) (v : Word) : State := { s with CH := s.CH.set k (.of v) }
/-- R19: `RES <- v`. -/
def setRES (s : State) (v : Word) : State := { s with RES := .of v }
/-- R20: `LK0 <- x; LK1 <- y; LK2 <- z`. -/
def setLK (s : State) (x y z : Word) : State := { s with LK0 := .of x, LK1 := .of y, LK2 := .of z }
/-- R21: `CMD <- c`. -/
def setCMD (s : State) (c : Word) : State := { s with CMD := c }
/-- R22: `STATUS.ILL <- b`. -/
def setILL (s : State) (b : Bool) : State := { s with ILL := b }
/-- The host's side, which no command reads or writes. -/
def setDriver (s : State) (d : Driver) : State := { s with driver := d }

/-! ### Reading registers -/

/-- The message word `W[j]`, for a command that has checked its mark. -/
def msg (s : State) (j : Fin 16) : Word := s.W[j].val
/-- The chain value `CH[k]`, for a command that has checked its mark. -/
def chain (s : State) (k : Fin 16) : Word := s.CH[k].val
/-- R16: the block in W. -/
def block (s : State) : Vector Word 16 := vec16 s.msg
/-- R18: OPA..OPD as the reference state (OPA, OPB, OPC, OPD). -/
def operands (s : State) : Vector Word 4 := #v[s.OPA.val, s.OPB.val, s.OPC.val, s.OPD.val]

/-- R22: what a read of STATUS returns: ILL in bit 0, zero in bits 31:1. -/
def statusWord (s : State) : Word := if s.ILL then 1 else 0

/-- R23: the written mark of a register. S, I, CMD and STATUS are never unwritten. -/
def written (s : State) : Reg → Bool
  | .cmd | .status => true
  | .s _ | .i _ => true
  | .w j => s.W[j].written
  | .ch k => s.CH[k].written
  | .opA => s.OPA.written
  | .opB => s.OPB.written
  | .opC => s.OPC.written
  | .opD => s.OPD.written
  | .opM => s.OPM.written
  | .res => s.RES.written
  | .lk0 => s.LK0.written
  | .lk1 => s.LK1.written
  | .lk2 => s.LK2.written

/-- R31: the current value of a register. -/
def value (s : State) : Reg → Word
  | .cmd => s.CMD
  | .status => s.statusWord
  | .s n => s.S[n]
  | .i n => s.I[n]
  | .w j => s.W[j].val
  | .ch k => s.CH[k].val
  | .opA => s.OPA.val
  | .opB => s.OPB.val
  | .opC => s.OPC.val
  | .opD => s.OPD.val
  | .opM => s.OPM.val
  | .res => s.RES.val
  | .lk0 => s.LK0.val
  | .lk1 => s.LK1.val
  | .lk2 => s.LK2.val

/-- R23: those of the registers `rs` whose mark is clear. -/
def unwritten (s : State) (rs : List Reg) : List Reg := rs.filter (fun r => !s.written r)

end State

/-- R26 (4): before a command writes anything, every register it reads must be written; then its results are
those of the state `t`. Otherwise the model faults and no state is written. -/
def requireWritten (rs : List Reg) (s t : State) : Outcome State Fault Refusal :=
  match s.unwritten rs with
  | [] => .next t
  | r :: more => .fault (.unwrittenRead (r :: more))

/-! ### R112, R115: the exception IllegalCommand and the return from it -/

/-- R112: taking IllegalCommand for the word `c`: CMD holds it, STATUS.ILL is 1, nothing else changes, and
nothing vectors. -/
def raiseIllegalCommand (c : Word) (s : State) : State := (s.setCMD c).setILL true

/-- R115: the host's return from IllegalCommand clears ILL, and CMD keeps the word. -/
def returnFromIllegal (s : State) : State := s.setILL false

/-! ### R119: reset -/

/-- R119: reset, a platform input: every register of the block at its value after reset, CTAB unaffected. The host's
side is not part of the block and stays (assumption log 21); so a host program that is under way goes on, and one that has
ended is still marked as ended (the model's choice, assumption log 28). -/
def resetBlock (s : State) : State := (State.resetWith s.CTAB).setDriver s.driver

end Sys2Proof.Machine
end

