-- ==== Sys2Proof/Machine/Operands.lean ====
section
/-!
DEFINITION. Which registers each command reads (the "Operands" lines of spec/41_state_and_compression.md,
spec/42_step_operators.md and spec/43_constraint_tables.md; spec/30_encoding.md R46). These are the
registers whose written marks R26 (4) checks.
-/

namespace Sys2Proof.Machine

/-- S[0..3]. -/
def chainingRegs : List Reg := steps4.map .s
/-- I[0..3]. -/
def initRegs : List Reg := steps4.map .i
/-- W[0..15]. -/
def messageRegs : List Reg := steps16.map .w
/-- Section 2 of 42: the operands of FWD.* and INV.*; R87, R88: those of CT_APPLY.A5 and CT_APPLY.D5. -/
def operatorRegs : List Reg := [.opA, .opB, .opC, .opD, .opM]

/-- R63. -/
def compressReads : List Reg := chainingRegs ++ messageRegs
/-- R86: OPM and OPB; OPA, OPC and OPD are not read. -/
def applyR1Reads : List Reg := [.opM, .opB]
/-- R89. -/
def r1StepReads (k : Fin 16) : List Reg := chainingRegs ++ [.w k]
/-- R90: S and W[0..15]. -/
def r1AllReads : List Reg := chainingRegs ++ messageRegs
/-- R91: S, I, W[0] and CH[1..4]. -/
def a5Reads : List Reg := chainingRegs ++ initRegs ++ [.w 0, .ch 1, .ch 2, .ch 3, .ch 4]
/-- R92: S, W[4], CH[0..3] and CH[5..8]. -/
def d5Reads : List Reg :=
  chainingRegs ++ [.w 4, .ch 0, .ch 1, .ch 2, .ch 3, .ch 5, .ch 6, .ch 7, .ch 8]

end Sys2Proof.Machine
end

