-- ==== Sys2Proof/Machine/Compression.lean ====
section
/-!
DEFINITION. The compression core and the commands that run it or move a chaining state
(spec/41_state_and_compression.md): R54 to R61, and NOP, COMPRESS, SEED, CAPTURE and LOAD_IV (R62 to R66).
-/

namespace Sys2Proof.Machine

open Host (Outcome)

/-- R44, R57: a round selects its combining function and its constant together (90_conflicts.md C1). -/
inductive Round where
  | one
  | two
  | three
  deriving DecidableEq, Repr

/-- R54: conditional select. -/
def F (x y z : Word) : Word := (x &&& y) ||| (~~~x &&& z)
/-- R55: majority. -/
def G (x y z : Word) : Word := (x &&& y) ||| (x &&& z) ||| (y &&& z)
/-- R56: parity. -/
def H (x y z : Word) : Word := x ^^^ y ^^^ z

/-- R57: `FN_r`. -/
def combine : Round → Word → Word → Word → Word
  | .one => F
  | .two => G
  | .three => H

/-- R57: `K_r`. -/
def roundConstant : Round → Word
  | .one => 0x00000000
  | .two => 0x5A827999
  | .three => 0x6ED9EBA1

/-- R58: `step(r, a, b, c, d, m, s)`. -/
def stepFn (r : Round) (a b c d m : Word) (s : Fin 32) : Word :=
  rotl (a + combine r b c d + m + roundConstant r) s

/-- R59: `TGT = [0, 3, 2, 1]`, the order a, d, c, b. -/
def targetOrder : Vector (Fin 4) 4 := #v[0, 3, 2, 1]
/-- R59: the index of the register that step `k` updates. -/
def target (k : Fin 16) : Fin 4 := targetOrder[k.val % 4]

/-- R59: `SH_r`. -/
def shiftOrder : Round → Vector (Fin 32) 4
  | .one => #v[3, 7, 11, 19]
  | .two => #v[3, 5, 9, 13]
  | .three => #v[3, 9, 11, 15]
/-- R59: the shift of step `k` of round `r`. -/
def shiftOf (r : Round) (k : Fin 16) : Fin 32 := (shiftOrder r)[k.val % 4]

/-- R59: `ORD_r`. -/
def wordOrder : Round → Vector (Fin 16) 16
  | .one => #v[0, 1, 2, 3, 4, 5, 6, 7, 8, 9, 10, 11, 12, 13, 14, 15]
  | .two => #v[0, 4, 8, 12, 1, 5, 9, 13, 2, 6, 10, 14, 3, 7, 11, 15]
  | .three => #v[0, 8, 4, 12, 2, 10, 6, 14, 1, 9, 5, 13, 3, 11, 7, 15]

/-- R59, R60: step `k` of round `r` on the working copy `X`. The operands are X[t], X[t+1], X[t+2], X[t+3]
with indices modulo 4 (`Fin 4` addition). -/
def updateStep (r : Round) (W : Vector Word 16) (X : Vector Word 4) (k : Fin 16) : Vector Word 4 :=
  let t := target k
  X.set t (stepFn r X[t] X[t + 1] X[t + 2] X[t + 3] W[(wordOrder r)[k]] (shiftOf r k))

/-- R60: the sixteen steps of round `r`. -/
def runRound (r : Round) (W : Vector Word 16) (X : Vector Word 4) : Vector Word 4 :=
  steps16.foldl (updateStep r W) X

/-- R60: `compress(S0, W)`. -/
def compress (S0 : Vector Word 4) (W : Vector Word 16) : Vector Word 4 :=
  let X := runRound .three W (runRound .two W (runRound .one W S0))
  vec4 fun n => S0[n] + X[n]

/-- R61: folding a sequence of blocks from a state. -/
def foldBlocks (S0 : Vector Word 4) (blocks : List (Vector Word 16)) : Vector Word 4 :=
  blocks.foldl compress S0

/-- R60: the values that the steps `ks` of round `r` write, in order (a1, d1, c1, b1, ... in round 1). -/
def stepValues (r : Round) (W : Vector Word 16) : List (Fin 16) → Vector Word 4 → List Word
  | [], _ => []
  | k :: ks, X => (updateStep r W X k)[target k] :: stepValues r W ks (updateStep r W X k)

/-- R60: the sixteen values that round 1 of `compress(S0, W)` writes. -/
def round1Values (S0 : Vector Word 4) (W : Vector Word 16) : List Word := stepValues .one W steps16 S0

/-- R60: the sixteen values that round 2 of `compress(S0, W)` writes: a5, d5, c5, b5, ... -/
def round2Values (S0 : Vector Word 4) (W : Vector Word 16) : List Word :=
  stepValues .two W steps16 (runRound .one W S0)

/-! ### Commands -/

/-- R62: NOP. -/
def execNop (s : State) : Outcome State Fault Refusal := .next s

/-- R63: COMPRESS, `S <- compress(S, W)`. -/
def execCompress (s : State) : Outcome State Fault Refusal :=
  requireWritten compressReads s (s.setChain (compress s.S s.block))

/-- R64: SEED, `S[i] <- I[i]`. -/
def execSeed (s : State) : Outcome State Fault Refusal :=
  requireWritten initRegs s (s.setChain s.I)

/-- R65: CAPTURE, `I[i] <- S[i]`. -/
def execCapture (s : State) : Outcome State Fault Refusal :=
  requireWritten chainingRegs s (s.setInit s.S)

/-- R66: LOAD_IV, `S <- IV`. -/
def execLoadIv (s : State) : Outcome State Fault Refusal := .next (s.setChain IV)

end Sys2Proof.Machine
end

