-- ==== Sys2Proof/Machine/StepOperators.lean ====
section
/-!
DEFINITION. The forward and inverse step operators and the six commands that expose them
(spec/42_step_operators.md): R67, R68, and FWD.F, FWD.G, FWD.H, INV.F, INV.G, INV.H (R70 to R75).
-/

namespace Sys2Proof.Machine

open Host (Outcome)

/-- R67: `forwardOp(r, a, b, c, d, m, s)` is the step of R58. -/
def forwardOp (r : Round) (a b c d m : Word) (s : Fin 32) : Word := stepFn r a b c d m s

/-- R68: `inverseOp(r, v, s, a, b, c, d)`. -/
def inverseOp (r : Round) (v : Word) (s : Fin 32) (a b c d : Word) : Word :=
  rotr v s - a - combine r b c d - roundConstant r

/-- Section 2 of 42: the template of FWD.*. -/
def forwardCommand (r : Round) (sh : Fin 32) (s : State) : Outcome State Fault Refusal :=
  requireWritten operatorRegs s
    (s.setRES (forwardOp r s.OPA.val s.OPB.val s.OPC.val s.OPD.val s.OPM.val sh))

/-- Section 2 of 42: the template of INV.*; OPM holds the desired value. -/
def inverseCommand (r : Round) (sh : Fin 32) (s : State) : Outcome State Fault Refusal :=
  requireWritten operatorRegs s
    (s.setRES (inverseOp r s.OPM.val sh s.OPA.val s.OPB.val s.OPC.val s.OPD.val))

/-- R70: FWD.F #s. -/
def execFwdF (sh : Fin 32) (s : State) : Outcome State Fault Refusal := forwardCommand .one sh s
/-- R71: FWD.G #s. -/
def execFwdG (sh : Fin 32) (s : State) : Outcome State Fault Refusal := forwardCommand .two sh s
/-- R72: FWD.H #s. -/
def execFwdH (sh : Fin 32) (s : State) : Outcome State Fault Refusal := forwardCommand .three sh s
/-- R73: INV.F #s. -/
def execInvF (sh : Fin 32) (s : State) : Outcome State Fault Refusal := inverseCommand .one sh s
/-- R74: INV.G #s. -/
def execInvG (sh : Fin 32) (s : State) : Outcome State Fault Refusal := inverseCommand .two sh s
/-- R75: INV.H #s. -/
def execInvH (sh : Fin 32) (s : State) : Outcome State Fault Refusal := inverseCommand .three sh s

end Sys2Proof.Machine
end

