-- ==== Sys2Proof/Machine/Tables.lean ====
section
/-!
DEFINITION. The constraint tables' lookup and application (spec/43_constraint_tables.md): the codes (R76), the
masks (R79), applyR1 and applyR2 (R80, R81), and CT_LOOKUP.* and CT_APPLY.* (R83 to R88).
-/

namespace Sys2Proof.Machine

open Host (Outcome)

/-- R76: the code of a BitCondition. -/
def condCode : BitCondition → Word
  | .forceZero => 0
  | .forceOne => 1
  | .equalToReference => 2

/-- R79: the OR of `1 << bit` over the pairs of `e` with condition `c`. -/
def condMask (c : BitCondition) : List BitRule → Word
  | [] => 0
  | p :: ps => (if p.cond = c then bitMask p.bit else 0) ||| condMask c ps

/-- R79: `ZM(e)`. -/
def zeroMask (e : List BitRule) : Word := condMask .forceZero e
/-- R79: `OM(e)`. -/
def oneMask (e : List BitRule) : Word := condMask .forceOne e
/-- R79: `EM(e)`. -/
def equalMask (e : List BitRule) : Word := condMask .equalToReference e

/-- R80: `applyR1(k, v, r)` for the entry `e = CTAB.R1[k]`. -/
def applyR1 (e : List BitRule) (v r : Word) : Word :=
  (v &&& ~~~(zeroMask e ||| oneMask e ||| equalMask e)) ||| oneMask e ||| (r &&& equalMask e)

/-- R81: the effect of one triple. -/
def applyTriple (R : Vector Word 4) (v : Word) (p : RefRule) : Word :=
  match p.cond with
  | .forceZero => v &&& ~~~bitMask p.bit
  | .forceOne => v ||| bitMask p.bit
  | .equalToReference => (v &&& ~~~bitMask p.bit) ||| (R[p.ref] &&& bitMask p.bit)

/-- R81: `applyR2(T, v, R)`, the triples in the order 0..4. -/
def applyR2 (T : Vector RefRule 5) (v : Word) (R : Vector Word 4) : Word :=
  T.toList.foldl (applyTriple R) v

/-- R84, R85: `LK0 <- bit; LK1 <- code(cond); LK2 <- ref`. -/
def lookupTriple (p : RefRule) (s : State) : State :=
  s.setLK (BitVec.ofNat 32 p.bit.val) (condCode p.cond) (BitVec.ofNat 32 p.ref.val)

/-- R83: CT_LOOKUP.R1 #k. -/
def execCtLookupR1 (k : Fin 16) (s : State) : Outcome State Fault Refusal :=
  let e := s.CTAB.r1[k]
  .next (s.setLK (zeroMask e) (oneMask e) (equalMask e))

/-- R84: CT_LOOKUP.A5 #j; IDX in 5..15 is illegal (R50), and takes IllegalCommand. -/
def execCtLookupA5 (j : Fin 16) (s : State) : Outcome State Fault Refusal :=
  if h : j.val < 5 then .next (lookupTriple s.CTAB.a5[j.val] s)
  else .next (raiseIllegalCommand s.CMD s)

/-- R85: CT_LOOKUP.D5 #j; IDX in 5..15 is illegal (R50), and takes IllegalCommand. -/
def execCtLookupD5 (j : Fin 16) (s : State) : Outcome State Fault Refusal :=
  if h : j.val < 5 then .next (lookupTriple s.CTAB.d5[j.val] s)
  else .next (raiseIllegalCommand s.CMD s)

/-- R86: CT_APPLY.R1 #k: the candidate is OPM and the reference is OPB. -/
def execCtApplyR1 (k : Fin 16) (s : State) : Outcome State Fault Refusal :=
  requireWritten applyR1Reads s (s.setRES (applyR1 s.CTAB.r1[k] s.OPM.val s.OPB.val))

/-- R87, R88: the candidate is OPM and the reference state is (OPA, OPB, OPC, OPD). -/
def applyCommand (T : Vector RefRule 5) (s : State) : Outcome State Fault Refusal :=
  requireWritten operatorRegs s (s.setRES (applyR2 T s.OPM.val s.operands))

/-- R87: CT_APPLY.A5. -/
def execCtApplyA5 (s : State) : Outcome State Fault Refusal := applyCommand s.CTAB.a5 s
/-- R88: CT_APPLY.D5. -/
def execCtApplyD5 (s : State) : Outcome State Fault Refusal := applyCommand s.CTAB.d5 s

end Sys2Proof.Machine
end

