-- ==== Sys2Proof/Machine/Modification.lean ====
section
/-!
DEFINITION. The modification commands R1_STEP, R1_ALL, A5_CORRECT and D5_CORRECT
(spec/43_constraint_tables.md R89 to R92, with the reading of 90_conflicts.md C3). The block does not check the
order in which they are issued (spec/70_reset_and_hazards.md R123).
-/

namespace Sys2Proof.Machine

open Host (Outcome)

/-- R89: what R1_STEP #k writes. The reference of the entry is operand b, `x1` (R77). -/
def r1StepOn (s : State) (k : Fin 16) : State :=
  let t := target k
  let sh := shiftOf .one k
  let x0 := s.S[t]
  let x1 := s.S[t + 1]
  let x2 := s.S[t + 2]
  let x3 := s.S[t + 3]
  let v := forwardOp .one x0 x1 x2 x3 (s.msg k) sh
  let v' := applyR1 s.CTAB.r1[k] v x1
  ((s.setW k (inverseOp .one v' sh x0 x1 x2 x3)).setS t v').setCH k v'

/-- R89: R1_STEP #k. -/
def execR1Step (k : Fin 16) (s : State) : Outcome State Fault Refusal :=
  requireWritten (r1StepReads k) s (r1StepOn s k)

/-- R90: R1_ALL, the steps 0..15 in sequence within one command. -/
def execR1All (s : State) : Outcome State Fault Refusal :=
  requireWritten r1AllReads s (steps16.foldl r1StepOn s)

/-- R91: what A5_CORRECT writes. -/
def a5CorrectOn (s : State) : State :=
  let a4 := s.S[0]
  let b4 := s.S[1]
  let c4 := s.S[2]
  let d4 := s.S[3]
  let a0 := s.I[0]
  let b0 := s.I[1]
  let c0 := s.I[2]
  let d0 := s.I[3]
  let d1 := s.chain 1
  let c1 := s.chain 2
  let b1 := s.chain 3
  let a2 := s.chain 4
  let v := forwardOp .two a4 b4 c4 d4 (s.msg 0) 3
  let v' := applyR2 s.CTAB.a5 v #v[a4, b4, c4, d4]
  let m0 := inverseOp .two v' 3 a4 b4 c4 d4
  let a1' := forwardOp .one a0 b0 c0 d0 m0 3
  let m1 := inverseOp .one d1 7 d0 a1' b0 c0
  let m2 := inverseOp .one c1 11 c0 d1 a1' b0
  let m3 := inverseOp .one b1 19 b0 c1 d1 a1'
  let m4 := inverseOp .one a2 3 a1' b1 c1 d1
  ((((((s.setW 0 m0).setW 1 m1).setW 2 m2).setW 3 m3).setW 4 m4).setCH 0 a1').setS 0 v'

/-- R91: A5_CORRECT. -/
def execA5Correct (s : State) : Outcome State Fault Refusal :=
  requireWritten a5Reads s (a5CorrectOn s)

/-- R92: what D5_CORRECT writes. -/
def d5CorrectOn (s : State) : State :=
  let a5 := s.S[0]
  let b4 := s.S[1]
  let c4 := s.S[2]
  let d4 := s.S[3]
  let a1 := s.chain 0
  let d1 := s.chain 1
  let c1 := s.chain 2
  let b1 := s.chain 3
  let d2 := s.chain 5
  let c2 := s.chain 6
  let b2 := s.chain 7
  let a3 := s.chain 8
  let v := forwardOp .two d4 a5 b4 c4 (s.msg 4) 5
  let v' := applyR2 s.CTAB.d5 v #v[a5, b4, c4, d4]
  let m4 := inverseOp .two v' 5 d4 a5 b4 c4
  let a2' := forwardOp .one a1 b1 c1 d1 m4 3
  let m5 := inverseOp .one d2 7 d1 a2' b1 c1
  let m6 := inverseOp .one c2 11 c1 d2 a2' b1
  let m7 := inverseOp .one b2 19 b1 c2 d2 a2'
  let m8 := inverseOp .one a3 3 a2' b2 c2 d2
  ((((((s.setW 4 m4).setW 5 m5).setW 6 m6).setW 7 m7).setW 8 m8).setCH 4 a2').setS 3 v'

/-- R92: D5_CORRECT. -/
def execD5Correct (s : State) : Outcome State Fault Refusal :=
  requireWritten d5Reads s (d5CorrectOn s)

end Sys2Proof.Machine
end

