-- ==== Sys2Proof/Machine/Dispatch.lean ====
section
/-!
DEFINITION. One arm per command of spec/30_encoding.md R48: each calls its meaning. exec runs a legal command
on a state whose CMD already holds the command word (spec/10_state.md R26 (1)).
-/

namespace Sys2Proof.Machine

open Host (Outcome)

def exec (i : Instr) (s : State) : Host.Outcome State Fault Refusal :=
  match i with
  | .nop => Sys2Proof.Machine.execNop s
  | .compress => Sys2Proof.Machine.execCompress s
  | .seed => Sys2Proof.Machine.execSeed s
  | .capture => Sys2Proof.Machine.execCapture s
  | .loadIv => Sys2Proof.Machine.execLoadIv s
  | .fwdF sh => Sys2Proof.Machine.execFwdF sh s
  | .fwdG sh => Sys2Proof.Machine.execFwdG sh s
  | .fwdH sh => Sys2Proof.Machine.execFwdH sh s
  | .invF sh => Sys2Proof.Machine.execInvF sh s
  | .invG sh => Sys2Proof.Machine.execInvG sh s
  | .invH sh => Sys2Proof.Machine.execInvH sh s
  | .ctLookupR1 k => Sys2Proof.Machine.execCtLookupR1 k s
  | .ctLookupA5 j => Sys2Proof.Machine.execCtLookupA5 j s
  | .ctLookupD5 j => Sys2Proof.Machine.execCtLookupD5 j s
  | .ctApplyR1 k => Sys2Proof.Machine.execCtApplyR1 k s
  | .ctApplyA5 => Sys2Proof.Machine.execCtApplyA5 s
  | .ctApplyD5 => Sys2Proof.Machine.execCtApplyD5 s
  | .r1Step k => Sys2Proof.Machine.execR1Step k s
  | .r1All => Sys2Proof.Machine.execR1All s
  | .a5Correct => Sys2Proof.Machine.execA5Correct s
  | .d5Correct => Sys2Proof.Machine.execD5Correct s

end Sys2Proof.Machine
end

