-- ==== Sys2Proof/Machine/Flags.lean ====
section
/-!
DEFINITION. The one flag, STATUS.ILL (spec/10_state.md R22, spec/20_memory.md R32). No arithmetic of the block
writes a flag (spec/60_exceptions.md R111: all arithmetic wraps).
-/

namespace Sys2Proof.Machine

/-- R22, R32: a host write of `v` to STATUS clears ILL when `v[0] = 1` and otherwise leaves it; the bits
written to 31:1 have no effect. -/
def writeStatus (v : Word) (s : State) : State :=
  if v[0] then returnFromIllegal s else s

end Sys2Proof.Machine
end

