-- ==== Sys2Proof/Machine/Window.lean ====
section
/-!
DEFINITION. The register window (spec/20_memory.md): the register map (R28), the checks on a host access (R29,
R30, R32) in the order of spec/60_exceptions.md R113, host reads (R31), host writes (R32), and the execution of
a command by a write to CMD (spec/10_state.md R26).
-/

namespace Sys2Proof.Machine

open Host (Outcome)

/-! ### R28: the register map -/

/-- R28: the offset of a register. -/
def Reg.offset : Reg → Nat
  | .cmd => 0x00
  | .status => 0x04
  | .s n => 0x10 + 4 * n.val
  | .i n => 0x20 + 4 * n.val
  | .w j => 0x40 + 4 * j.val
  | .ch k => 0x80 + 4 * k.val
  | .opA => 0xC0
  | .opB => 0xC4
  | .opC => 0xC8
  | .opD => 0xCC
  | .opM => 0xD0
  | .res => 0xD4
  | .lk0 => 0xD8
  | .lk1 => 0xDC
  | .lk2 => 0xE0

/-- R28: the register at word `n` of the window (offset `4 * n`); `none` is reserved. -/
def regAtWord (n : Nat) : Option Reg :=
  if n = 0 then some .cmd
  else if n = 1 then some .status
  else if n < 4 then none
  else if n < 8 then some (.s (Fin.ofNat 4 (n - 4)))
  else if n < 12 then some (.i (Fin.ofNat 4 (n - 8)))
  else if n < 16 then none
  else if n < 32 then some (.w (Fin.ofNat 16 (n - 16)))
  else if n < 48 then some (.ch (Fin.ofNat 16 (n - 32)))
  else if n = 48 then some .opA
  else if n = 49 then some .opB
  else if n = 50 then some .opC
  else if n = 51 then some .opD
  else if n = 52 then some .opM
  else if n = 53 then some .res
  else if n = 54 then some .lk0
  else if n = 55 then some .lk1
  else if n = 56 then some .lk2
  else none

/-- R28: the register at a byte offset; each register is one aligned 32-bit word. -/
def regAt (off : Nat) : Option Reg := if off % 4 = 0 then regAtWord (off / 4) else none

/-- R29, R30, R113: the checks that reads and writes share, in their order: an access outside the window is
none of the block's; then width and alignment; then the reserved offsets. -/
def checkAccess (width off : Nat) : Except Refusal Reg :=
  if 0xFF < off then .error .outsideWindow
  else if width ≠ 32 ∨ off % 4 ≠ 0 then .error .misalignedOrNarrowAccess
  else
    match regAt off with
    | none => .error .reservedOffset
    | some r => .ok r

/-! ### R31: host reads -/

/-- R52: a read that the program states must return a value it does not return. -/
def claimBroken (claim : Option Word) (v : Word) : Bool :=
  match claim with
  | none => false
  | some c => c != v

/-- R127: the host has received `v` from a read. -/
def Driver.receive (d : Driver) (claim : Option Word) (v : Word) : Driver :=
  { d with readLog := v :: d.readLog, claimFailed := d.claimFailed || claimBroken claim v }

/-- R31: a host read returns the register's value to the host and changes no register; it faults on an
unwritten register (R23). -/
def hostRead (r : Reg) (claim : Option Word) (s : State) : Outcome State Fault Refusal :=
  requireWritten [r] s (s.setDriver (s.driver.receive claim (s.value r)))

/-! ### R26, R32: host writes -/

/-- R26: the host has written `c` to CMD: CMD holds it, it is decoded, and an illegal word raises
IllegalCommand (R112), while a legal one runs. -/
def runCommand (c : Word) (s : State) : Outcome State Fault Refusal :=
  match decode c with
  | none => .next (raiseIllegalCommand c s)
  | some i => exec i (s.setCMD c)

/-- R32: a host write of `v` to a register, by its class. -/
def hostWrite (r : Reg) (v : Word) (s : State) : Outcome State Fault Refusal :=
  match r with
  | .cmd => runCommand v s
  | .status => .next (writeStatus v s)
  | .s n => .next (s.setS n v)
  | .i n => .next (s.setI n v)
  | .w j => .next (s.setW j v)
  | .ch k => .next (s.setCH k v)
  | .opA => .next { s with OPA := .of v }
  | .opB => .next { s with OPB := .of v }
  | .opC => .next { s with OPC := .of v }
  | .opD => .next { s with OPD := .of v }
  | .opM => .next { s with OPM := .of v }
  | .res => .refused .readOnlyWrite
  | .lk0 => .refused .readOnlyWrite
  | .lk1 => .refused .readOnlyWrite
  | .lk2 => .refused .readOnlyWrite

/-- R12, R29 to R32: one host access. -/
def performAccess (a : Access) (s : State) : Outcome State Fault Refusal :=
  match a with
  | .read width off claim =>
    match checkAccess width off with
    | .error e => .refused e
    | .ok r => hostRead r claim s
  | .write width off v =>
    match checkAccess width off with
    | .error e => .refused e
    | .ok r => hostWrite r v s

end Sys2Proof.Machine
end

