-- ==== Sys2Proof/Machine/Program.lean ====
section
/-!
DEFINITION. Host programs (spec/30_encoding.md R52) and the byte order of blocks and states
(spec/20_memory.md R34 to R36).
-/

namespace Sys2Proof.Machine

/-! ### R34 to R36: byte order, little-endian -/

/-- R35: four bytes, least significant first, as a word. -/
def packWord (b0 b1 b2 b3 : Byte) : Word :=
  b0.setWidth 32 ||| (b1.setWidth 32 <<< 8) ||| (b2.setWidth 32 <<< 16) ||| (b3.setWidth 32 <<< 24)

/-- R35: byte `n` of a sequence of bytes that is at least `n + 1` bytes long. -/
def byteAt (bs : List Byte) (n : Nat) : Byte := bs.getD n 0

/-- R35: a block of 64 bytes as its 16 words. -/
def packBlock (bs : List Byte) : Vector Word 16 :=
  vec16 fun j =>
    packWord (byteAt bs (4 * j.val)) (byteAt bs (4 * j.val + 1)) (byteAt bs (4 * j.val + 2))
      (byteAt bs (4 * j.val + 3))

/-- R36: `LE(x)`, the four bytes of `x`, least significant first. -/
def serializeWord (x : Word) : List Byte :=
  [x.extractLsb' 0 8, x.extractLsb' 8 8, x.extractLsb' 16 8, x.extractLsb' 24 8]

/-- R35: the 64 bytes of a block. -/
def serializeBlock (W : Vector Word 16) : List Byte := W.toList.flatMap serializeWord

/-- R36: the 16 bytes of a chaining state; a digest is such a serialized state. -/
def serializeState (x : Vector Word 4) : List Byte := x.toList.flatMap serializeWord

/-! ### R52: statements of a host program -/

/-- R12: `HostRead(offset(r))`. -/
def rdAccess (r : Reg) : Access := .read 32 r.offset none
/-- R12: `HostWrite(offset(r), v)`. -/
def wrAccess (r : Reg) (v : Word) : Access := .write 32 r.offset v
/-- R52: `WR CMD, enc(i)`. -/
def cmdAccess (i : Instr) : Access := wrAccess .cmd (encode i)

/-- R52: the statements and pseudo-instructions of a host program. -/
inductive Statement where
  | wr (r : Reg) (v : Word)
  | rd (r : Reg)
  | rdClaim (r : Reg) (v : Word)
  | cmd (i : Instr)
  | ldw (ws : Vector Word 16)
  | ldblk (bytes : Vector Byte 64)
  | ldops (a b c d m : Word)
  | clrill
  deriving DecidableEq, Repr

/-- R52: the 16 statements `WR W[j], wj`. -/
def loadWords (ws : Vector Word 16) : List Access := steps16.map fun j => wrAccess (.w j) ws[j]

/-- R52: the host accesses a statement stands for. -/
def Statement.expand : Statement → List Access
  | .wr r v => [wrAccess r v]
  | .rd r => [rdAccess r]
  | .rdClaim r v => [.read 32 r.offset (some v)]
  | .cmd i => [cmdAccess i]
  | .ldw ws => loadWords ws
  | .ldblk bytes => loadWords (packBlock bytes.toList)
  | .ldops a b c d m =>
    [wrAccess .opA a, wrAccess .opB b, wrAccess .opC c, wrAccess .opD d, wrAccess .opM m]
  | .clrill => [wrAccess .status 0x00000001]

/-- R52, R127: a host program, a finite sequence of statements, asked of the host of this instance. -/
def State.withProgram (s : State) (p : List Statement) : State :=
  s.setDriver { s.driver with jobs := s.driver.jobs ++ [.program (p.flatMap Statement.expand)] }

/-- R127: a host program starts, with no access pending: its observation begins here, so the values of earlier
reads leave the log (assumption log 28). -/
def startProgramStep (accesses : List Access) (js : List Job) (d : Driver) : Driver :=
  { d with pending := accesses, jobs := js, readLog := [], claimFailed := false, inProgram := true }

/-- R127: a host program has ended when its last access has completed, until the host serves its next request. -/
def State.programEnded (s : State) : Bool := s.driver.inProgram && s.driver.pending.isEmpty

/-- R28: the registers of the block, in the order of their offsets. -/
def allRegs : List Reg :=
  [.cmd, .status] ++ steps4.map .s ++ steps4.map .i ++ steps16.map .w ++ steps16.map .ch
    ++ [.opA, .opB, .opC, .opD, .opM, .res, .lk0, .lk1, .lk2]

/-- R23: a register as it can be seen: its value, or nothing under a clear mark. -/
def State.seen (s : State) (r : Reg) : Option Word := if s.written r then some (s.value r) else none

/-- R127: the observation of a host program: what its reads returned, oldest first, and the block's registers at
its end. -/
structure Observation where
  reads     : List Word
  registers : List (Option Word)  -- one for each of allRegs
  deriving DecidableEq, Repr

/-- R127: the observation of the program that has ended here; there is none before its end, and none of a run that
faulted or was refused. The registers are those of the state it is asked of. A step changes none of them before the host's
next request; a platform reset (R119) after the end does, and then the program's reads stand beside the registers after
that reset: the model's choice (assumption log 28). -/
def State.observation (s : State) : Option Observation :=
  if s.programEnded then some ⟨s.driver.readLog.reverse, allRegs.map s.seen⟩ else none

end Sys2Proof.Machine
end

