-- ==== Sys2Proof/Machine/Procedures.lean ====
section
/-!
DEFINITION. The host's requests: its procedures over the block (spec/45_host_procedures.md): the Message Buffer
(R98, R99), CAPTURE (R100), one trial (R101 to R105), the search with its budget and cancellation (R106 to R108),
the caller-facing build (R109) and caller-layer faults (R110); and host programs (R127). Each procedure acts on the block only through the
accesses it issues. A step of the host between two accesses issues the next ones and touches no register.
-/

namespace Sys2Proof.Machine

open Host (Outcome)

/-- The last `n + 1` values read, the newest first; entry `n` is asked for only when that many were read. -/
def Driver.readAgo (d : Driver) (n : Nat) : Word := d.readLog.getD n 0

/-- R103: the values that `RD W[0]`, ..., `RD W[15]` returned. -/
def Driver.readBlock (d : Driver) : Vector Word 16 := vec16 fun j => d.readAgo (15 - j.val)

/-- R105: the values that `RD S[0]`, ..., `RD S[3]` returned. -/
def Driver.readState (d : Driver) : Vector Word 4 := vec4 fun n => d.readAgo (3 - n.val)

/-- R98: fold one block: LDBLK of the 64 bytes, then COMPRESS. -/
def foldAccesses (bytes : List Byte) : List Access :=
  loadWords (packBlock bytes) ++ [cmdAccess .compress]

/-- R98: the cumulative byte count wraps; its width is not specified (Config.byteCountWidth). -/
def countBytes (count n : Nat) : Nat := (count + n) % 2 ^ Config.byteCountWidth

/-! ### R98 to R100: the Message Buffer -/

/-- R98: a new Message Buffer: S is loaded with IV, and the buffer is empty. -/
def startMessageStep (js : List Job) (d : Driver) : Driver :=
  { d with
    pending := [cmdAccess .loadIv], jobs := js, buffer := [], byteCount := 0, ingested := false,
    zeroPadding := none }

/-- R98: append bytes to the buffer; when it reaches 64 bytes, fold it and go on with the rest. -/
def ingestStep (bytes : List Byte) (js : List Job) (d : Driver) : Driver :=
  let room := 64 - d.buffer.length
  if bytes.length < room then
    { d with
      jobs := js, buffer := d.buffer ++ bytes, byteCount := countBytes d.byteCount bytes.length,
      ingested := d.ingested || !bytes.isEmpty }
  else
    { d with
      pending := foldAccesses (d.buffer ++ bytes.take room)
      jobs := .ingest (bytes.drop room) :: js
      buffer := []
      byteCount := countBytes d.byteCount (bytes.take room).length
      ingested := true }

/-- R99: `n` zero bytes. -/
def zeroBytes (n : Nat) : List Byte := List.replicate n 0

/-- R99: finalize, by its three cases; the chaining state it returns is S of the block. -/
def finalizeStep (js : List Job) (d : Driver) : Driver :=
  if 0 < d.buffer.length then
    { d with
      pending := foldAccesses (d.buffer ++ zeroBytes (64 - d.buffer.length))
      jobs := js
      buffer := []
      zeroPadding := some (zeroBytes (64 - d.buffer.length)) }
  else if d.ingested then
    { d with jobs := js, zeroPadding := some [] }
  else
    match d.emptyPrefixPad with
    | .pad0 => { d with jobs := js, zeroPadding := some [] }
    | .pad64 =>
      { d with pending := foldAccesses (zeroBytes 64), jobs := js, zeroPadding := some (zeroBytes 64) }

/-- R100: CAPTURE. -/
def captureStep (js : List Job) (d : Driver) : Driver :=
  { d with pending := [cmdAccess .capture], jobs := js }

/-! ### R101 to R105: one trial -/

/-- R104: the sibling of a block. -/
def sibling (w1 : Vector Word 16) : Vector Word 16 :=
  ((w1.set 1 (w1[1] + 0x80000000)).set 2 (w1[2] + 0x70000000)).set 12 (w1[12] - 0x00010000)

/-- R102: the modification, in its order. -/
def modifyAccesses : List Access := [cmdAccess .r1All, cmdAccess .a5Correct, cmdAccess .d5Correct]

/-- R103: read W back. -/
def readBlockAccesses : List Access := steps16.map fun j => rdAccess (.w j)

/-- R105: compress init with the block in W, and read the result. -/
def verifyAccesses : List Access :=
  [cmdAccess .seed, cmdAccess .compress] ++ steps4.map fun n => rdAccess (.s n)

/-- R105 step 2: rewrite the three words that differ. -/
def rewriteAccesses (w2 : Vector Word 16) : List Access :=
  [wrAccess (.w 1) w2[1], wrAccess (.w 2) w2[2], wrAccess (.w 12) w2[12]]

/-- R108: the four host writes of the shared init. -/
def writeInitStep (x : Vector Word 4) (js : List Job) (d : Driver) : Driver :=
  { d with pending := steps4.map fun n => wrAccess (.i n) x[n], jobs := js }

/-- R106, R107, R108: the search ends with `r`, and the next one starts afresh. -/
def endSearch (r : SearchResult) (js : List Job) (d : Driver) : Driver :=
  { d with jobs := js, phase := .generate, trials := 0, result := some r }

/-- R108: another worker of the parallel search has succeeded; a search of its own is never cancelled. -/
def Driver.cancelAsked (d : Driver) (group : Option Nat) : Bool :=
  match group with
  | none => false
  | some g => d.cancelRequests.contains g

/-- R107: `n` trials have failed, and a budget of that many is given. -/
def budgetReached (budget : Option Nat) (failed : Nat) : Bool :=
  match budget with
  | none => false
  | some n => decide (n ≤ failed)

/-- R105, R107, R108: the trial boundary after step 7. -/
def trialBoundary (group : Option Nat) (b1 b2 : Vector Word 16) (h1 h2 : Vector Word 4) (js : List Job)
    (d : Driver) : Driver :=
  if h1 = h2 then endSearch (.found b1 b2) js d
  else if d.cancelAsked group then endSearch .cancelled js d
  else if budgetReached d.trialBudget (d.trials + 1) then endSearch .budgetSpent js d
  else { d with phase := .generate, trials := d.trials + 1 }

/-- R101: the words u0..u15 of a trial, if RAND gives 16. -/
def drawWords (d : Driver) : Vector Word 16 := vec16 fun j => d.rand.getD j.val 0

/-- R101 to R106: what the host `d` of a search does next. `js` are the requests after the search. -/
def findStep (group : Option Nat) (js : List Job) (d : Driver) (s : State) : Outcome State Fault Refusal :=
  match d.phase with
  | .generate => .next (s.setDriver { d with pending := [cmdAccess .seed], phase := .modify, result := none })
  | .modify =>
    if d.rand.length < 16 then .fault .randomnessExhausted
    else
      .next (s.setDriver
        { d with
          pending := loadWords (drawWords d) ++ modifyAccesses ++ readBlockAccesses
          rand := d.rand.drop 16
          phase := .derive })
  | .derive =>
    .next (s.setDriver { d with pending := verifyAccesses, phase := .rewrite d.readBlock })
  | .rewrite b1 =>
    .next (s.setDriver
      { d with
        pending := rewriteAccesses (sibling b1) ++ verifyAccesses
        phase := .compare b1 (sibling b1) d.readState })
  | .compare b1 b2 h1 => .next (s.setDriver (trialBoundary group b1 b2 h1 d.readState js d))

/-- R110: the host has hit a caller-layer fault: its accesses have completed and that request is reached. -/
def Driver.faulted (d : Driver) : Bool :=
  match d.pending, d.jobs with
  | [], .ioFault :: _ => true
  | _, _ => false

/-- R110: the host hits a caller-layer fault now: of its accesses only the completed ones are made, and a host program
that had some still to make never ends (R127). -/
def Driver.fail (d : Driver) : Driver :=
  { d with pending := [], jobs := .ioFault :: d.jobs, inProgram := d.inProgram && d.pending.isEmpty }

/-- R96: what the host does between two accesses: serve the first request. With no request, and from a caller-layer fault
on (R110: that request stays the first, so none behind it is ever served), the host issues nothing and the block, a slave,
does nothing. When the next request is served, a host program that ended before is over (R127). -/
def driverStep (s : State) : Outcome State Fault Refusal :=
  let d := { s.driver with inProgram := false }
  match d.jobs with
  | [] => .next s
  | .program as :: js => .next (s.setDriver (startProgramStep as js d))
  | .startMessage :: js => .next (s.setDriver (startMessageStep js d))
  | .ingest bytes :: js => .next (s.setDriver (ingestStep bytes js d))
  | .finalize :: js => .next (s.setDriver (finalizeStep js d))
  | .capture :: js => .next (s.setDriver (captureStep js d))
  | .writeInit x :: js => .next (s.setDriver (writeInitStep x js d))
  | .find group :: js => findStep group js d s
  | .ioFault :: _ => .next s

/-- R109: the caller-facing build for the prefix `P`, from reset (R122 (1)). -/
def buildJobs (P : List Byte) : List Job := [.ingest P, .finalize, .capture, .find none]

/-- R109, R122 (1): the build when the block is not fresh from reset: LOAD_IV first. -/
def rebuildJobs (P : List Byte) : List Job := .startMessage :: buildJobs P

/-- R109: what the build returns once its search has succeeded: zeroPadding, block1 and block2 as bytes. -/
def buildResult (s : State) : Option (List Byte × List Byte × List Byte) :=
  match s.driver.zeroPadding, s.driver.result with
  | some z, some (.found b1 b2) => some (z, serializeBlock b1, serializeBlock b2)
  | _, _ => none

end Sys2Proof.Machine
end

