-- ==== Sys2Proof/Machine/Step.lean ====
section
/-!
DEFINITION. One step: the host's next access, with the whole command if it is a write to CMD
(spec/70_reset_and_hazards.md R126), or, when no access is pending, what the host does before its next one
(spec/45_host_procedures.md). The block has no program counter and fetches nothing (spec/10_state.md R25): a
command comes to it as the word that the host writes to CMD.
-/

namespace Sys2Proof.Machine

open Host (Outcome)

/-- R37, R126: accesses take effect one at a time, in the order the host issues them. -/
def step (s : State) : Outcome State Fault Refusal :=
  match s.driver.pending with
  | [] => driverStep s
  | a :: rest => performAccess a (s.setDriver { s.driver with pending := rest })

/-- The instruction whose bits are `w` placed where the next step takes it: as the host's next access, a write
of the word to CMD (R26, R40). Nothing else of the state changes (assumption log 5). -/
def State.withFetchWord (s : State) (nbits w : Nat) : State :=
  s.setDriver
    { s.driver with pending := wrAccess .cmd (BitVec.ofNat 32 (w % 2 ^ nbits)) :: s.driver.pending }

end Sys2Proof.Machine
end

