-- ==== Sys2Proof/Machine/Configure.lean ====
section
/-!
DEFINITION. Making a model from a configuration (spec/00_scope.md R8, D35): a raw CTAB whose numbers may be out of
range or whose bits may repeat is checked, and a configuration that is not well-formed is refused
(spec/60_exceptions.md R111, IllFormedCTAB).
-/

namespace Sys2Proof.Machine

open Host (Outcome)

/-- R8, R76: the tables as plain numbers: (bit, code) pairs and (bit, code, ref) triples. -/
structure RawCTab where
  r1 : List (List (Nat × Nat))
  a5 : List (Nat × Nat × Nat)
  d5 : List (Nat × Nat × Nat)
  deriving DecidableEq, Repr

/-- R76: the condition of a code; code 3 and above do not exist. -/
def condOfCode : Nat → Option BitCondition
  | 0 => some .forceZero
  | 1 => some .forceOne
  | 2 => some .equalToReference
  | _ => none

/-- R8: a (bit, cond) pair, if both are in range. -/
def checkPair (p : Nat × Nat) : Option BitRule := do
  let c ← condOfCode p.2
  if h : p.1 < 32 then some ⟨⟨p.1, h⟩, c⟩ else none

/-- R8: a (bit, cond, ref) triple, if all three are in range. -/
def checkTriple (p : Nat × Nat × Nat) : Option RefRule := do
  let c ← condOfCode p.2.1
  if h : p.1 < 32 then
    if h' : p.2.2 < 4 then some ⟨⟨p.1, h⟩, c, ⟨p.2.2, h'⟩⟩ else none
  else none

/-- Every member of a list passes its check. -/
def checkAll {α β : Type} (f : α → Option β) : List α → Option (List β)
  | [] => some []
  | x :: xs => do
    let y ← f x
    let ys ← checkAll f xs
    some (y :: ys)

/-- A list of exactly `n` members as a vector. -/
def exactly {α : Type} (n : Nat) (xs : List α) : Option (Vector α n) :=
  if h : xs.length = n then some ⟨xs.toArray, by simpa using h⟩ else none

/-- R7, R8: 16 entries, 5 and 5 triples, and every number in range. -/
def RawCTab.ranged (t : RawCTab) : Option CTab := do
  let r1 ← (checkAll (checkAll checkPair) t.r1).bind (exactly 16)
  let a5 ← (checkAll checkTriple t.a5).bind (exactly 5)
  let d5 ← (checkAll checkTriple t.d5).bind (exactly 5)
  some ⟨r1, a5, d5⟩

/-- R8, D35: the reset state of a model with the configuration `t`, or the refusal IllFormedCTAB. -/
def configure (t : RawCTab) : Outcome State Fault Refusal :=
  match t.ranged with
  | none => .refused .illFormedCtab
  | some c => if c.wf then .next (State.resetWith c) else .refused .illFormedCtab

end Sys2Proof.Machine
end

