-- ==== Sys2Proof/Machine/Platform.lean ====
section
/-!
DEFINITION. Several instances of the block on one platform (spec/60_exceptions.md R117, spec/00_scope.md R9: BASE and
N_INST), the platform's reset input (spec/70_reset_and_hazards.md R119), and parallel searches by some of the instances
(spec/45_host_procedures.md R108). Instances share no register; each step of the platform is a step or a reset of one
instance, a fault of its caller (R110), or the start of a parallel search, which the schedule names.
-/

namespace Sys2Proof.Machine

open Host (Outcome)

/-- R9, R117: one instance, at its own BASE, with its own host. -/
structure Worker where
  base  : Nat
  state : State
  deriving DecidableEq, Repr

/-- R108: a parallel search: its workers, the init they share, and its result: the first worker to succeed and its
pair. Its number is its place in the platform's list (assumption log 27). -/
structure ParallelSearch where
  members : List Nat
  init    : Vector Word 4
  result  : Option (Nat × Vector Word 16 × Vector Word 16)
  deriving DecidableEq, Repr

/-- R108, R110, R117, R119: what happens next on a platform: an instance moves, or it is reset, or its host hits a
caller-layer fault, or some instances are asked for a parallel search from a shared init. -/
inductive PlatformEvent where
  | move (k : Nat)
  | reset (k : Nat)
  | ioFault (k : Nat)
  | search (members : List Nat) (init : Vector Word 4)
  deriving DecidableEq, Repr

/-- R108, R117: the instances of a platform, its parallel searches, and what happens next (an input: R37 orders
accesses to one instance only, and reset is a platform input). -/
structure Platform where
  workers  : List Worker
  searches : List ParallelSearch
  schedule : List PlatformEvent
  deriving DecidableEq, Repr

/-- R27: an address is in the window of an instance at `base`. -/
def inWindow (base addr : Nat) : Bool := decide (base ≤ addr) && decide (addr ≤ base + 0xFF)

/-- Two windows share no address. The model's choice (assumption log 26): R117 gives each instance its own BASE, and
no rule says whether windows may overlap. -/
def windowsApart (b1 b2 : Nat) : Bool := decide (b1 + 0xFF < b2) || decide (b2 + 0xFF < b1)

/-- R9, D2: at least one instance, and every BASE 4-aligned; and, by the model's choice (assumption log 26), the
windows apart. -/
def Platform.wf (p : Platform) : Bool :=
  !p.workers.isEmpty && p.workers.all (fun w => w.base % 4 == 0)
    && decide (p.workers.Pairwise (fun w w' => windowsApart w.base w'.base = true))

/-- R12, R27: the host address of an offset of an instance. -/
def busAddress (base off : Nat) : Nat := base + off

/-- R27, R30: which instance an address belongs to, and the offset within its window. An address of none is not an
access to the block. -/
def routeFrom (n : Nat) (addr : Nat) : List Worker → Option (Nat × Nat)
  | [] => none
  | w :: ws => if inWindow w.base addr then some (n, addr - w.base) else routeFrom (n + 1) addr ws

/-- R27: routing on the platform. -/
def Platform.route (p : Platform) (addr : Nat) : Option (Nat × Nat) := routeFrom 0 addr p.workers

/-- R108: the parallel search of which a worker's step from `s` to `s'` completed a successful step 7, and the pair. -/
def justFound (s s' : State) : Option (Nat × Vector Word 16 × Vector Word 16) :=
  match s.driver.jobs, s.driver.result, s'.driver.result with
  | .find (some g) :: _, none, some (.found b1 b2) => some (g, b1, b2)
  | _, _, _ => none

/-- R108: ask a worker to stop its part of search `g` at its next trial boundary. -/
def Worker.requestCancel (g : Nat) (w : Worker) : Worker :=
  { w with state := w.state.setDriver { w.state.driver with cancelRequests := g :: w.state.driver.cancelRequests } }

/-- R108: every worker of a search but number `k`. -/
def cancelOthers (g k : Nat) (members : List Nat) (ws : List Worker) : List Worker :=
  ws.mapIdx fun n w => if n ≠ k ∧ n ∈ members then w.requestCancel g else w

/-- R108: worker `k` has found `pair` in search `g`. When it is a worker of that search, with the shared init in its I,
and none succeeded before, its pair is the result and the rest are cancelled; otherwise nothing changes here
(assumption logs 24, 27). -/
def Platform.settle (g k : Nat) (init : Vector Word 4) (pair : Vector Word 16 × Vector Word 16) (p : Platform) :
    Platform :=
  match p.searches[g]? with
  | none => p
  | some q =>
    if q.result = none ∧ k ∈ q.members ∧ init = q.init then
      { p with
        workers := cancelOthers g k q.members p.workers
        searches := p.searches.set g { q with result := some (k, pair) } }
    else p

/-- R108, R117: instance `k` moves; the others keep their registers. A number that names no instance moves none. -/
def Platform.move (k : Nat) (p : Platform) : Outcome Platform Fault Refusal :=
  match p.workers[k]? with
  | none => .next p
  | some w =>
    match Sys2Proof.Machine.step w.state with
    | .next s' =>
      let moved := { p with workers := p.workers.set k { w with state := s' } }
      .next (match justFound w.state s' with
        | none => moved
        | some (g, pair) => moved.settle g k s'.I pair)
    | .fault f => .fault f
    | .refused e => .refused e

/-- R117, R119: each instance has its own reset. -/
def Platform.reset (k : Nat) (p : Platform) : Platform :=
  { p with workers := p.workers.modify k fun w => { w with state := resetBlock w.state } }

/-- R110: the host of instance `k` hits a caller-layer fault, between two accesses. -/
def Platform.ioFault (k : Nat) (p : Platform) : Platform :=
  { p with workers := p.workers.modify k fun w => { w with state := w.state.setDriver w.state.driver.fail } }

/-- R108: the requests of one worker of search `g`: write the shared init into its I, then search. -/
def Worker.joinSearch (g : Nat) (init : Vector Word 4) (w : Worker) : Worker :=
  { w with
    state := w.state.setDriver
      { w.state.driver with jobs := w.state.driver.jobs ++ [.writeInit init, .find (some g)] } }

/-- R108: a parallel search begins. -/
def Platform.search (members : List Nat) (init : Vector Word 4) (p : Platform) : Platform :=
  { p with
    workers := p.workers.mapIdx fun n w => if n ∈ members then w.joinSearch p.searches.length init else w
    searches := p.searches ++ [⟨members, init, none⟩] }

/-- R108, R110, R117, R119: the next event of the schedule. -/
def Platform.step (p : Platform) : Outcome Platform Fault Refusal :=
  match p.schedule with
  | [] => .next p
  | .move k :: rest => Platform.move k { p with schedule := rest }
  | .reset k :: rest => .next (Platform.reset k { p with schedule := rest })
  | .ioFault k :: rest => .next (Platform.ioFault k { p with schedule := rest })
  | .search members init :: rest => .next (Platform.search members init { p with schedule := rest })

end Sys2Proof.Machine
end

