-- ==== Sys2Proof/Safety.lean ====
section
/-!
DEFINITION. The terms that claims are made in: the invariant of the machine, what each command needs and writes
(spec/70_reset_and_hazards.md R121, and the "Writes" lines of 41 to 43), when a condition of a table is met
(spec/43_constraint_tables.md R76 to R80), runs of commands, and which states look the same (R23, R120).
-/

namespace Sys2Proof.Machine

open Host (Outcome)

/-! ### The invariant -/

/-- R104: the second block of a phase or a result is the sibling of the first. -/
def Phase.siblings : Phase → Prop
  | .generate | .modify | .derive => True
  | .rewrite _ => True
  | .compare b1 b2 _ => b2 = sibling b1

/-- R104: a pair that the search returns is a block and its sibling. -/
def SearchResult.siblings : SearchResult → Prop
  | .found b1 b2 => b2 = sibling b1
  | .budgetSpent | .cancelled => True

/-- R98, R104, R107: the host's side is in order: fewer than 64 bytes in the buffer, pairs that are siblings, a
budget of at least one trial, and fewer failed trials than the budget. -/
structure Driver.Ok (d : Driver) : Prop where
  bufferShort : d.buffer.length < 64
  phasePair   : d.phase.siblings
  resultPair  : ∀ r, d.result = some r → r.siblings
  budget      : ∀ n, d.trialBudget = some n → d.trials < n

/-- R8, R24, R98, R104, R107: the tables are well-formed and the host's side is in order. -/
structure State.Inv (s : State) : Prop where
  tables : s.CTAB.wf
  host   : s.driver.Ok

/-- R104, R108, R117: every instance of a platform is in order, and every result of a parallel search is a block and its
sibling. -/
structure Platform.Inv (p : Platform) : Prop where
  workers : ∀ w ∈ p.workers, w.state.Inv
  results : ∀ q ∈ p.searches, ∀ k b1 b2, q.result = some (k, b1, b2) → b2 = sibling b1

/-! ### What commands need and write -/

/-- R121: the registers other than S and I that must be written before a command. -/
def needs : Instr → List Reg
  | .nop | .seed | .capture | .loadIv => []
  | .ctLookupR1 _ | .ctLookupA5 _ | .ctLookupD5 _ => []
  | .compress => steps16.map .w
  | .fwdF _ | .fwdG _ | .fwdH _ | .invF _ | .invG _ | .invH _ => [.opA, .opB, .opC, .opD, .opM]
  | .ctApplyR1 _ => [.opM, .opB]
  | .ctApplyA5 | .ctApplyD5 => [.opA, .opB, .opC, .opD, .opM]
  | .r1Step k => [.w k]
  | .r1All => steps16.map .w
  | .a5Correct => [.w 0, .ch 1, .ch 2, .ch 3, .ch 4]
  | .d5Correct => [.w 4, .ch 0, .ch 1, .ch 2, .ch 3, .ch 5, .ch 6, .ch 7, .ch 8]

/-- R121: every register that the command needs is written. -/
def Ready (i : Instr) (s : State) : Prop := ∀ r ∈ needs i, s.written r = true

/-- R62 to R66, section 2 of 42, R83 to R92: the registers a legal command writes. -/
def writes : Instr → List Reg
  | .nop => []
  | .compress | .seed | .loadIv => steps4.map .s
  | .capture => steps4.map .i
  | .fwdF _ | .fwdG _ | .fwdH _ | .invF _ | .invG _ | .invH _ => [.res]
  | .ctLookupR1 _ | .ctLookupA5 _ | .ctLookupD5 _ => [.lk0, .lk1, .lk2]
  | .ctApplyR1 _ | .ctApplyA5 | .ctApplyD5 => [.res]
  | .r1Step k => [.w k, .ch k, .s (target k)]
  | .r1All => steps4.map .s ++ steps16.map .w ++ steps16.map .ch
  | .a5Correct => [.w 0, .w 1, .w 2, .w 3, .w 4, .ch 0, .s 0]
  | .d5Correct => [.w 4, .w 5, .w 6, .w 7, .w 8, .ch 4, .s 3]

/-- R23, R111: the command stops with UnwrittenRead. -/
def FaultsUnwritten (i : Instr) (s : State) : Prop := ∃ rs, exec i s = .fault (.unwrittenRead rs)

/-! ### Conditions of the tables -/

/-- R76: bit `n` of `v` meets a condition, with reference word `r`. -/
def condMet (c : BitCondition) (v r : Word) (n : Fin 32) : Prop :=
  match c with
  | .forceZero => v[n] = false
  | .forceOne => v[n] = true
  | .equalToReference => v[n] = r[n]

/-- R77: `v` meets every pair of a round-1 entry, with reference word `r`. -/
def entryMet (e : List BitRule) (v r : Word) : Prop := ∀ p ∈ e, condMet p.cond v r p.bit

/-- R78: `v` meets every triple of a round-2 table, with reference state `R`. -/
def tableMet (T : Vector RefRule 5) (v : Word) (R : Vector Word 4) : Prop :=
  ∀ p ∈ T.toList, condMet p.cond v R[p.ref] p.bit

/-- R77: the reference word of round-1 entry `k` on a chain: b0 for a1, else the register before it. -/
def chainReference (b0 : Word) (chain : Fin 16 → Word) (k : Fin 16) : Word :=
  if k = 0 then b0 else chain (k - 1)

/-! ### Runs -/

/-- Commands one after another, each on the state the one before it left. -/
def runCommands : List Instr → State → Outcome State Fault Refusal
  | [], s => .next s
  | i :: is, s =>
    match exec i s with
    | .next t => runCommands is t
    | .fault f => .fault f
    | .refused e => .refused e

/-- R127: `k` steps of the machine end in `t`, without a fault or a refusal. -/
def State.runsTo (s : State) (k : Nat) (t : State) : Prop := Sys2Proof.core.run k s = .next t

/-! ### What can be seen of a state (R23, R120) -/

/-- R23: a register with the value under a clear mark put out of sight. -/
def Marked.scrub (m : Marked) : Marked := if m.written then m else .unwritten

/-- R23: a state with every value under a clear mark put out of sight. -/
def State.scrub (s : State) : State :=
  { s with
    W := vec16 fun j => s.W[j].scrub
    CH := vec16 fun k => s.CH[k].scrub
    OPA := s.OPA.scrub
    OPB := s.OPB.scrub
    OPC := s.OPC.scrub
    OPD := s.OPD.scrub
    OPM := s.OPM.scrub
    RES := s.RES.scrub
    LK0 := s.LK0.scrub
    LK1 := s.LK1.scrub
    LK2 := s.LK2.scrub }

/-- R120: two states that differ only in values no source gives. -/
def SameInSight (s t : State) : Prop := s.scrub = t.scrub

/-- Two outcomes that agree, with next states that look the same. -/
def OutcomesSame : Outcome State Fault Refusal → Outcome State Fault Refusal → Prop
  | .next s, .next t => SameInSight s t
  | .fault f, .fault g => f = g
  | .refused e, .refused e' => e = e'
  | _, _ => False

end Sys2Proof.Machine
end

