-- ==== Sys2Proof/Certificates/Slice0/Obligations.lean ====
section
/-!
DEFINITION. The statements for the provers, each from rules of spec/. A statement about commands is made of `exec`,
which runs a legal command on a state whose CMD already holds its word (spec/10_state.md R26); the statements of
section 2 carry it to `step`.
-/

open Sys2Proof Sys2Proof.Machine Host

/-! ### 1. Encoding (30_encoding.md) -/

/-- R48, R52: `enc` is undone by the decoder, for every well-formed command with every operand. -/
def Obligations.DecodeOfEncodeIsTheCommand : Prop :=
  ∀ i : Instr, i.wf = true → decode (encode i) = some i

/-- R48, R52: the decoder gives only well-formed commands, and a word is the encoding of what it decodes to. -/
def Obligations.EncodeOfDecodeIsTheWord : Prop :=
  ∀ (c : Word) (i : Instr), decode c = some i → i.wf = true ∧ encode i = c

/-- R48: a word is legal exactly when it matches one row; no word matches two rows; and the row it matches has the
mnemonic of the command it decodes to. -/
def Obligations.LegalExactlyWhenOneRowMatches : Prop :=
  ∀ c : Word,
    (opcodeRows.filter fun r => r.holds c).length ≤ 1 ∧
    ((decode c).isSome = true ↔ ∃ r ∈ opcodeRows, r.holds c = true) ∧
    ∀ i, decode c = some i → ∀ r ∈ opcodeRows, r.holds c = true → r.mnemonic = i.mnemonic

/-- R53: the eight example encodings, both ways. -/
def Obligations.ExampleWordsDecode : Prop :=
  ∀ p ∈ ([(0x00010310, .fwdF 3), (0x00020510, .fwdG 5), (0x00011311, .invF 19), (0x00800020, .ctLookupR1 8),
      (0x00480020, .ctLookupD5 4), (0x00300021, .ctApplyR1 3), (0x00F00030, .r1Step 15), (0x00000032, .a5Correct)] :
      List (Word × Instr)),
    encode p.2 = p.1 ∧ decode p.1 = some p.2

/-- R51: the assembler gives a command exactly for its mnemonic with its immediate, in range; it never truncates. -/
def Obligations.AssemblerTakesExactlyTheLegalLines : Prop :=
  ∀ (m : String) (imm : Option Nat) (i : Instr),
    assemble m imm = some i ↔ i.wf = true ∧ m = i.mnemonic ∧ imm = i.immediate

/-! ### 2. A step (10_state.md R26, 20_memory.md, 60_exceptions.md) -/

/-- R26, R21: when the host's next access is a 32-bit write of a legal word to CMD, the step runs the decoded command on
the state whose CMD holds the word, with that access taken from the host's queue. -/
def Obligations.StepRunsTheDecodedCommand : Prop :=
  ∀ (s : State) (c : Word) (rest : List Access) (i : Instr),
    s.driver.pending = .write 32 0x00 c :: rest → decode c = some i →
    step s = exec i { s with CMD := c, driver := { s.driver with pending := rest } }

/-- The model's withFetchWord (assumption log 5): the instruction placed by it is the one the next step runs. -/
def Obligations.FetchWordRunsNext : Prop :=
  ∀ (s : State) (c : Word) (i : Instr), decode c = some i →
    decodeTableWord 32 c.toNat = some i ∧ step (s.withFetchWord 32 c.toNat) = exec i { s with CMD := c }

/-- R112: an illegal word written to CMD is stored there and sets STATUS.ILL; no other register changes, no written
mark changes, nothing is read, and the write completes. The word stays in CMD until the next CMD write: no other step changes
CMD, and a read of CMD returns it. -/
def Obligations.IllegalWordTakesIllegalCommand : Prop :=
  (∀ (s : State) (c : Word) (rest : List Access),
    s.driver.pending = .write 32 0x00 c :: rest → decode c = none →
    step s = .next { s with CMD := c, ILL := true, driver := { s.driver with pending := rest } }) ∧
  ∀ s t : State, step s = .next t →
    t.value .cmd = t.CMD ∧
    (t.CMD ≠ s.CMD → ∃ c rest, s.driver.pending = .write 32 0x00 c :: rest ∧ t.CMD = c)

/-- R22, R115: a step that clears ILL is a 32-bit host write to STATUS with bit 0 set; in particular no command clears
it. -/
def Obligations.OnlyTheHostClearsIll : Prop :=
  ∀ s t : State, step s = .next t → s.ILL = true → t.ILL = false →
    ∃ v rest, s.driver.pending = .write 32 0x04 v :: rest ∧ v[0] = true

/-- R22: ILL becomes 1 only by a write of an illegal word to CMD. -/
def Obligations.OnlyAnIllegalWordSetsIll : Prop :=
  ∀ s t : State, step s = .next t → s.ILL = false → t.ILL = true →
    ∃ c rest, s.driver.pending = .write 32 0x00 c :: rest ∧ decode c = none ∧ t.CMD = c

/-- R22, R32: a host write to STATUS clears ILL when bit 0 is 1, has no effect when it is 0, and changes nothing else. -/
def Obligations.StatusIsWriteOneToClear : Prop :=
  ∀ (s : State) (v : Word) (rest : List Access), s.driver.pending = .write 32 0x04 v :: rest →
    step s = .next
      { s with ILL := s.ILL && !v[0], driver := { s.driver with pending := rest } }

/-- R31: a host read of a written register returns its value to the host, and changes nothing else; of a register whose mark is
clear it faults and names that register; STATUS reads as ILL in bit 0 with zero in bits 31:1, and CMD as the word it holds. -/
def Obligations.HostReadReturnsTheValueOnly : Prop :=
  (∀ (s : State) (r : Reg) (rest : List Access),
    s.driver.pending = .read 32 r.offset none :: rest →
    (s.written r = true → step s = .next
      { s with driver := { s.driver with pending := rest, readLog := s.value r :: s.driver.readLog } }) ∧
    (s.written r = false → step s = .fault (.unwrittenRead [r]))) ∧
  ∀ s : State, s.value .cmd = s.CMD ∧ (s.value .status)[0] = s.ILL ∧
    ∀ n : Fin 32, 0 < n → (s.value .status)[n] = false

/-- The model's choice (assumption log 11): a host read for which the program states a value reads as any other read does, and
records in claimFailed whether another value came; the run goes on. -/
def Obligations.WrongReadClaimIsRecorded : Prop :=
  ∀ (s : State) (r : Reg) (c : Word) (rest : List Access),
    s.driver.pending = .read 32 r.offset (some c) :: rest →
    (s.written r = true → step s = .next
      { s with driver :=
          { s.driver with
            pending := rest, readLog := s.value r :: s.driver.readLog
            claimFailed := s.driver.claimFailed || (c != s.value r) } }) ∧
    (s.written r = false → step s = .fault (.unwrittenRead [r]))

/-- R32, R37: after a host write of `v` to a data register (S, I, W, CH, OPA..OPD, OPM), that register is written and holds
`v`; every other register, mark and flag is as it was. -/
def Obligations.HostWriteStoresAndMarks : Prop :=
  ∀ (s : State) (r : Reg) (v : Word) (rest : List Access),
    s.driver.pending = .write 32 r.offset v :: rest →
    r ∉ [Reg.cmd, .status, .res, .lk0, .lk1, .lk2] →
    ∃ t, step s = .next t ∧ t.value r = v ∧ t.written r = true ∧
      (∀ r', r' ≠ r → t.value r' = s.value r' ∧ t.written r' = s.written r') ∧
      t.ILL = s.ILL ∧ t.CTAB = s.CTAB ∧ t.driver = { s.driver with pending := rest }

/-- R28: the offset of every register; every register is found at its offset, only there, and offsets are multiples of 4 within
the window; nothing stands at the reserved offsets. -/
def Obligations.RegisterMapIsOneToOne : Prop :=
  (Reg.cmd.offset = 0x00 ∧ Reg.status.offset = 0x04 ∧
    (∀ n : Fin 4, (Reg.s n).offset = 0x10 + 4 * n.val ∧ (Reg.i n).offset = 0x20 + 4 * n.val) ∧
    (∀ j : Fin 16, (Reg.w j).offset = 0x40 + 4 * j.val ∧ (Reg.ch j).offset = 0x80 + 4 * j.val) ∧
    [Reg.opA, .opB, .opC, .opD, .opM, .res, .lk0, .lk1, .lk2].map Reg.offset =
      [0xC0, 0xC4, 0xC8, 0xCC, 0xD0, 0xD4, 0xD8, 0xDC, 0xE0]) ∧
  (∀ r : Reg, regAt r.offset = some r ∧ r.offset % 4 = 0 ∧ r.offset ≤ 0xFF) ∧
  (∀ (off : Nat) (r : Reg), regAt off = some r → r.offset = off) ∧
  ∀ off ∈ [0x08, 0x0C, 0x30, 0x34, 0x38, 0x3C, 0xE4, 0xE8, 0xEC, 0xF0, 0xF4, 0xF8, 0xFC], regAt off = none

/-- R29, R30, R32, R113: which accesses are refused, in the order of the checks: within the window, a width other than
32 bits or an unaligned offset first, then a reserved offset (0x08..0x0C, 0x30..0x3C, 0xE4..0xFC), then a write to RES, LK0, LK1
or LK2. -/
def Obligations.AccessChecksInOrder : Prop :=
  ∀ (s : State) (width off : Nat) (v : Word) (claim : Option Word), off ≤ 0xFF →
    ((width ≠ 32 ∨ off % 4 ≠ 0) →
      performAccess (.read width off claim) s = .refused .misalignedOrNarrowAccess ∧
      performAccess (.write width off v) s = .refused .misalignedOrNarrowAccess) ∧
    (width = 32 → off % 4 = 0 →
      ((0x08 ≤ off ∧ off ≤ 0x0C) ∨ (0x30 ≤ off ∧ off ≤ 0x3C) ∨ 0xE4 ≤ off) →
      performAccess (.read width off claim) s = .refused .reservedOffset ∧
      performAccess (.write width off v) s = .refused .reservedOffset) ∧
    (width = 32 → off % 4 = 0 → 0xD4 ≤ off → off ≤ 0xE0 →
      performAccess (.write width off v) s = .refused .readOnlyWrite)

/-- R113, R111: a command never ends in a refusal, and the only fault it can end in is UnwrittenRead. -/
def Obligations.CommandsOnlyFaultOnUnwritten : Prop :=
  ∀ (i : Instr) (s : State),
    (∃ t, exec i s = .next t) ∨
    ∃ rs, exec i s = .fault (.unwrittenRead rs) ∧ rs ≠ [] ∧ ∀ r ∈ rs, r ∈ needs i ∧ s.written r = false

/-- R121: a legal command completes exactly when every register it needs is written; otherwise it faults. -/
def Obligations.CommandCompletesExactlyWhenReady : Prop :=
  ∀ (i : Instr) (s : State), i.wf = true →
    ((∃ t, exec i s = .next t) ↔ Ready i s) ∧
    (¬ Ready i s → ∃ rs, exec i s = .fault (.unwrittenRead rs))

/-- R14 to R22, R62 to R92 ("Writes"): a legal command that completes changes no register but those its rule names, no mark
of another register, no flag, not CMD, not the tables and nothing on the host's side. -/
def Obligations.CommandsWriteOnlyTheirRegisters : Prop :=
  ∀ (i : Instr) (s t : State), i.wf = true → exec i s = .next t →
    (∀ r, r ∉ writes i → t.value r = s.value r ∧ t.written r = s.written r) ∧
    t.ILL = s.ILL ∧ t.CTAB = s.CTAB ∧ t.driver = s.driver

/-- R23, R24: no step clears a written mark, and none changes the constraint tables. -/
def Obligations.StepKeepsMarksAndTables : Prop :=
  ∀ s t : State, step s = .next t →
    t.CTAB = s.CTAB ∧ ∀ r, s.written r = true → t.written r = true

/-- R15, R65: I changes only by CAPTURE or by a host write to one of its words. -/
def Obligations.OnlyCaptureAndHostWritesChangeInit : Prop :=
  ∀ s t : State, step s = .next t → t.I ≠ s.I →
    ∃ off v rest, s.driver.pending = .write 32 off v :: rest ∧
      ((off = 0x00 ∧ decode v = some .capture ∧ t.I = s.S) ∨ (0x20 ≤ off ∧ off ≤ 0x2C))

/-! ### 3. Reset and the invariant (70_reset_and_hazards.md) -/

/-- R119: the values the spec gives for reset. -/
def Obligations.ResetLeavesTheSpecValues : Prop :=
  State.reset.S = #v[0x67452301, 0xEFCDAB89, 0x98BADCFE, 0x10325476] ∧
  State.reset.I = #v[0x67452301, 0xEFCDAB89, 0x98BADCFE, 0x10325476] ∧
  State.reset.value .cmd = 0x00000000 ∧ State.reset.value .status = 0x00000000 ∧
  State.reset.CTAB = Config.ctab.tab ∧
  ∀ r : Reg, State.reset.written r = true ↔
    r = .cmd ∨ r = .status ∨ (∃ n, r = .s n) ∨ ∃ n, r = .i n

/-- R8, R98, R104, R107: the invariant holds at reset. That the host's side is idle at reset is the model's choice (assumption log 4). -/
def Obligations.InvAtReset : Prop := State.reset.Inv

/-- R8, R24, R98, R104, R107: every step keeps the invariant. -/
def Obligations.EveryStepKeepsInv : Prop :=
  ∀ s t : State, s.Inv → step s = .next t → t.Inv

/-- R23, R120, D16: no step depends on a value under a clear mark: two states that differ only there take steps that
end alike. The choice of a reset value (assumption log 2) can therefore never be observed. -/
def Obligations.UnwrittenValuesAreNeverObserved : Prop :=
  ∀ s t : State, SameInSight s t → OutcomesSame (step s) (step t)

/-- R8, D35: a configuration is accepted exactly when it has 16 entries and 5 and 5 triples, every number is in range, and no bit
repeats within an entry or a table; otherwise it is refused. -/
def Obligations.ConfigurationAcceptedExactlyWhenWellFormed : Prop :=
  ∀ t : RawCTab,
    ((∃ s, configure t = .next s) ↔
      (t.r1.length = 16 ∧ t.a5.length = 5 ∧ t.d5.length = 5 ∧
        (∀ e ∈ t.r1, (∀ p ∈ e, p.1 < 32 ∧ p.2 < 3) ∧ (e.map Prod.fst).Nodup) ∧
        (∀ p ∈ t.a5 ++ t.d5, p.1 < 32 ∧ p.2.1 < 3 ∧ p.2.2 < 4) ∧
        (t.a5.map Prod.fst).Nodup ∧ (t.d5.map Prod.fst).Nodup)) ∧
    ((∃ s, configure t = .next s) ∨ configure t = .refused .illFormedCtab)

/-! ### 4. Compression and state commands (41_state_and_compression.md) -/

/-- R54, R55, R56: the three combining functions, bit by bit: select, majority, parity. -/
def Obligations.CombiningFunctionsBitByBit : Prop :=
  ∀ (x y z : Word) (n : Fin 32),
    (F x y z)[n] = (if x[n] then y[n] else z[n]) ∧
    ((G x y z)[n] = true ↔ 2 ≤ [x[n], y[n], z[n]].count true) ∧
    ((H x y z)[n] = true ↔ [x[n], y[n], z[n]].count true % 2 = 1)

/-- R58, R59: four steps a, d, c, b of round `r`, as RFC 1320 writes them, with message words m0..m3 and shifts s0..s3. -/
def fourSteps (r : Round) (s0 s1 s2 s3 : Fin 32) (X : Word × Word × Word × Word) (m0 m1 m2 m3 : Word) :
    Word × Word × Word × Word :=
  let a := stepFn r X.1 X.2.1 X.2.2.1 X.2.2.2 m0 s0
  let d := stepFn r X.2.2.2 a X.2.1 X.2.2.1 m1 s1
  let c := stepFn r X.2.2.1 d a X.2.1 m2 s2
  let b := stepFn r X.2.1 c d a m3 s3
  (a, b, c, d)

/-- R59: round 1, words 0..15 in order, shifts 3, 7, 11, 19. -/
def fourByFour1 (W : Vector Word 16) (X : Word × Word × Word × Word) : Word × Word × Word × Word :=
  let f := fourSteps .one 3 7 11 19
  f (f (f (f X W[0] W[1] W[2] W[3]) W[4] W[5] W[6] W[7]) W[8] W[9] W[10] W[11]) W[12] W[13] W[14] W[15]

/-- R59: round 2, columns, shifts 3, 5, 9, 13. -/
def fourByFour2 (W : Vector Word 16) (X : Word × Word × Word × Word) : Word × Word × Word × Word :=
  let f := fourSteps .two 3 5 9 13
  f (f (f (f X W[0] W[4] W[8] W[12]) W[1] W[5] W[9] W[13]) W[2] W[6] W[10] W[14]) W[3] W[7] W[11] W[15]

/-- R59: round 3, order 0, 8, 4, 12, 2, 10, 6, 14, 1, 9, 5, 13, 3, 11, 7, 15, shifts 3, 9, 11, 15. -/
def fourByFour3 (W : Vector Word 16) (X : Word × Word × Word × Word) : Word × Word × Word × Word :=
  let f := fourSteps .three 3 9 11 15
  f (f (f (f X W[0] W[8] W[4] W[12]) W[2] W[10] W[6] W[14]) W[1] W[9] W[5] W[13]) W[3] W[11] W[7] W[15]

/-- R59, R60, R63: COMPRESS is the word 1; it completes when W is written, and sets S to the sum of S and the three rounds of
sixteen steps, written out here register by register; nothing else changes. With a word of W unwritten it faults. -/
def Obligations.CompressRunsThreeRoundsAndAddsS : Prop :=
  encode .compress = 0x00000001 ∧ ∀ s : State,
    ((∀ j : Fin 16, s.W[j].written = true) →
      let X := fourByFour3 s.block (fourByFour2 s.block (fourByFour1 s.block (s.S[0], s.S[1], s.S[2], s.S[3])))
      exec .compress s = .next
        { s with S := #v[s.S[0] + X.1, s.S[1] + X.2.1, s.S[2] + X.2.2.1, s.S[3] + X.2.2.2] }) ∧
    ((∃ j : Fin 16, s.W[j].written = false) → FaultsUnwritten .compress s)

/-- R60, R63: the block of the padded message "abc", from IV, compresses to the state of R63's example. -/
def Obligations.CompressOfAbcBlock : Prop :=
  compress #v[0x67452301, 0xEFCDAB89, 0x98BADCFE, 0x10325476]
      #v[0x80636261, 0, 0, 0, 0, 0, 0, 0, 0, 0, 0, 0, 0, 0, 0x00000018, 0] =
    #v[0x7A0148A4, 0x52D821AF, 0xE80AC15F, 0x9D72A67A]

/-- R62, R64, R65, R66: NOP changes nothing; SEED copies I to S; CAPTURE copies S to I; LOAD_IV loads the MD4 constants into
S. Each completes in every state and changes nothing else; CAPTURE then SEED leaves S unchanged. -/
def Obligations.StateCommandsMoveChainingStates : Prop :=
  (encode .nop = 0x00000000 ∧ encode .seed = 0x00000002 ∧ encode .capture = 0x00000003 ∧ encode .loadIv = 0x00000004) ∧
  ∀ s : State,
    exec .nop s = .next s ∧
    exec .seed s = .next { s with S := s.I } ∧
    exec .capture s = .next { s with I := s.S } ∧
    exec .loadIv s = .next { s with S := #v[0x67452301, 0xEFCDAB89, 0x98BADCFE, 0x10325476] } ∧
    runCommands [.capture, .seed] s = .next { s with I := s.S }

/-! ### 5. Step operators (42_step_operators.md) -/

/-- R11, R67 to R69: rotation and the operators are mutual inverses, for every round, shift and words. -/
def Obligations.OperatorsAreMutualInverses : Prop :=
  ∀ (r : Round) (s : Fin 32) (a b c d m v : Word),
    rotr (rotl v s) s = v ∧
    inverseOp r (forwardOp r a b c d m s) s a b c d = m ∧
    forwardOp r a b c d (inverseOp r v s a b c d) s = v

/-- R70, R71, R72: FWD.F, FWD.G and FWD.H: their encodings; they complete when their five operands are written, and RES is the
rotated sum of the rule, and nothing else changes; with an operand unwritten they fault. -/
def Obligations.ForwardCommandsWriteTheRotatedSum : Prop :=
  ∀ (s : State) (sh : Fin 32),
    (encode (.fwdF sh) &&& 0xFFFFE0FF = 0x00010010 ∧ encode (.fwdG sh) &&& 0xFFFFE0FF = 0x00020010 ∧
      encode (.fwdH sh) &&& 0xFFFFE0FF = 0x00030010) ∧
    (∀ i ∈ [Instr.fwdF sh, .fwdG sh, .fwdH sh], (shField (encode i)).toNat = sh.val ∧
      ((∃ r ∈ [Reg.opA, .opB, .opC, .opD, .opM], s.written r = false) → FaultsUnwritten i s)) ∧
    ((∀ r ∈ [Reg.opA, .opB, .opC, .opD, .opM], s.written r = true) →
      let a := s.OPA.val
      let b := s.OPB.val
      let c := s.OPC.val
      let d := s.OPD.val
      let m := s.OPM.val
      exec (.fwdF sh) s = .next
        { s with RES := ⟨(a + ((b &&& c) ||| (~~~b &&& d)) + m).rotateLeft sh.val, true⟩ } ∧
      exec (.fwdG sh) s = .next
        { s with RES :=
            ⟨(a + ((b &&& c) ||| (b &&& d) ||| (c &&& d)) + m + 0x5A827999).rotateLeft sh.val, true⟩ } ∧
      exec (.fwdH sh) s = .next
        { s with RES := ⟨(a + (b ^^^ c ^^^ d) + m + 0x6ED9EBA1).rotateLeft sh.val, true⟩ })

/-- R73, R74, R75: INV.F, INV.G and INV.H: their encodings; they complete when their five operands are written, and RES is the
word of the rule, with the desired value in OPM, and nothing else changes; with an operand unwritten they fault. The word is the
one that FWD takes to that value. -/
def Obligations.InverseCommandsSolveForTheWord : Prop :=
  ∀ (s : State) (sh : Fin 32),
    (encode (.invF sh) &&& 0xFFFFE0FF = 0x00010011 ∧ encode (.invG sh) &&& 0xFFFFE0FF = 0x00020011 ∧
      encode (.invH sh) &&& 0xFFFFE0FF = 0x00030011) ∧
    (∀ i ∈ [Instr.invF sh, .invG sh, .invH sh], (shField (encode i)).toNat = sh.val ∧
      ((∃ r ∈ [Reg.opA, .opB, .opC, .opD, .opM], s.written r = false) → FaultsUnwritten i s)) ∧
    ((∀ r ∈ [Reg.opA, .opB, .opC, .opD, .opM], s.written r = true) →
      let a := s.OPA.val
      let b := s.OPB.val
      let c := s.OPC.val
      let d := s.OPD.val
      let v := s.OPM.val
      exec (.invF sh) s = .next
        { s with RES := ⟨v.rotateRight sh.val - a - ((b &&& c) ||| (~~~b &&& d)), true⟩ } ∧
      exec (.invG sh) s = .next
        { s with RES :=
            ⟨v.rotateRight sh.val - a - ((b &&& c) ||| (b &&& d) ||| (c &&& d)) - 0x5A827999, true⟩ } ∧
      exec (.invH sh) s = .next
        { s with RES := ⟨v.rotateRight sh.val - a - (b ^^^ c ^^^ d) - 0x6ED9EBA1, true⟩ } ∧
      ∀ (r : Round) (m : Word), forwardOp r a b c d m sh = v → inverseOp r v sh a b c d = m)

/-! ### 6. Constraint tables: lookup and application (43_constraint_tables.md) -/

/-- R79, R83: CT_LOOKUP.R1 #k has k in IDX, completes in every state and returns the three masks of entry k: bit n of LK0, LK1 and LK2 is
set exactly when the entry has the pair (n, forceZero), (n, forceOne), (n, equalToReference); nothing else changes. -/
def Obligations.LookupR1ReturnsTheMasks : Prop :=
  ∀ (s : State) (k : Fin 16), ∃ zm om em : Word,
    encode (.ctLookupR1 k) &&& 0xFF0FFFFF = 0x00000020 ∧ (idxField (encode (.ctLookupR1 k))).toNat = k.val ∧
    exec (.ctLookupR1 k) s = .next { s with LK0 := ⟨zm, true⟩, LK1 := ⟨om, true⟩, LK2 := ⟨em, true⟩ } ∧
    ∀ n : Fin 32,
      (zm[n] = true ↔ ⟨n, .forceZero⟩ ∈ s.CTAB.r1[k]) ∧
      (om[n] = true ↔ ⟨n, .forceOne⟩ ∈ s.CTAB.r1[k]) ∧
      (em[n] = true ↔ ⟨n, .equalToReference⟩ ∈ s.CTAB.r1[k])

/-- R76, R84, R85: CT_LOOKUP.A5 #j and CT_LOOKUP.D5 #j with j in 0..4 complete in every state and return bit, code and ref
of the triple, the codes being 0, 1 and 2; nothing else changes. Their words have j in IDX, and with IDX in 5..15 are illegal. -/
def Obligations.LookupA5D5ReturnTheTriple : Prop :=
  (∀ j : Fin 16,
    encode (.ctLookupA5 j) &&& 0xFF0FFFFF = 0x00040020 ∧ encode (.ctLookupD5 j) &&& 0xFF0FFFFF = 0x00080020 ∧
    (idxField (encode (.ctLookupA5 j))).toNat = j.val ∧ (idxField (encode (.ctLookupD5 j))).toNat = j.val ∧
    (5 ≤ j.val → decode (encode (.ctLookupA5 j)) = none ∧ decode (encode (.ctLookupD5 j)) = none)) ∧
  ∀ (s : State) (j : Fin 5),
    let code : BitCondition → Nat := fun c => match c with
      | .forceZero => 0
      | .forceOne => 1
      | .equalToReference => 2
    ∃ x y z x' y' z' : Word,
      exec (.ctLookupA5 (j.castLE (by omega))) s = .next { s with LK0 := ⟨x, true⟩, LK1 := ⟨y, true⟩, LK2 := ⟨z, true⟩ } ∧
      exec (.ctLookupD5 (j.castLE (by omega))) s = .next { s with LK0 := ⟨x', true⟩, LK1 := ⟨y', true⟩, LK2 := ⟨z', true⟩ } ∧
      (x.toNat = s.CTAB.a5[j].bit.val ∧ y.toNat = code s.CTAB.a5[j].cond ∧ z.toNat = s.CTAB.a5[j].ref.val) ∧
      x'.toNat = s.CTAB.d5[j].bit.val ∧ y'.toNat = code s.CTAB.d5[j].cond ∧ z'.toNat = s.CTAB.d5[j].ref.val

/-- R50, R84, R85: a CT_LOOKUP.A5 or CT_LOOKUP.D5 with IDX in 5..15 is illegal: its word does not decode. And by the model's
choice (assumption log 12), the command itself, which no word decodes to, takes IllegalCommand. -/
def Obligations.LookupA5D5IllegalIndex : Prop :=
  ∀ (s : State) (j : Fin 16), 5 ≤ j.val →
    decode (encode (.ctLookupA5 j)) = none ∧ decode (encode (.ctLookupD5 j)) = none ∧
    exec (.ctLookupA5 j) s = .next { s with ILL := true } ∧
    exec (.ctLookupD5 j) s = .next { s with ILL := true }

/-- R80, R86: CT_APPLY.R1 #k has k in IDX. With a well-formed CTAB it completes when OPM and OPB are written and writes only RES:
a bit of a forceZero pair is 0, of a forceOne pair 1, of an equalToReference pair OPB's bit, and every other bit is OPM's. With
OPM or OPB unwritten it faults. -/
def Obligations.ApplyR1ForcesTheEntryBits : Prop :=
  ∀ (s : State) (k : Fin 16),
    encode (.ctApplyR1 k) &&& 0xFF0FFFFF = 0x00000021 ∧ (idxField (encode (.ctApplyR1 k))).toNat = k.val ∧
    (s.CTAB.wf → s.OPM.written = true → s.OPB.written = true →
      ∃ v : Word, exec (.ctApplyR1 k) s = .next { s with RES := ⟨v, true⟩ } ∧
        entryMet s.CTAB.r1[k] v s.OPB.val ∧
        ∀ n : Fin 32, (∀ c, ⟨n, c⟩ ∉ s.CTAB.r1[k]) → v[n] = s.OPM.val[n]) ∧
    ((s.OPM.written = false ∨ s.OPB.written = false) → FaultsUnwritten (.ctApplyR1 k) s)

/-- R81, R87, R88: CT_APPLY.A5 and CT_APPLY.D5, with a well-formed CTAB, complete when OPA..OPD and OPM are written and write
only RES: every triple is met with the reference state (OPA, OPB, OPC, OPD), and every other bit is OPM's. With one of the five
unwritten they fault. -/
def Obligations.ApplyA5D5ForceTheTripleBits : Prop :=
  encode .ctApplyA5 = 0x00040021 ∧ encode .ctApplyD5 = 0x00080021 ∧ ∀ s : State,
    (s.CTAB.wf → (∀ r ∈ [Reg.opA, .opB, .opC, .opD, .opM], s.written r = true) →
      let R : Vector Word 4 := #v[s.OPA.val, s.OPB.val, s.OPC.val, s.OPD.val]
      (∃ v : Word, exec .ctApplyA5 s = .next { s with RES := ⟨v, true⟩ } ∧ tableMet s.CTAB.a5 v R ∧
        ∀ n : Fin 32, (∀ p ∈ s.CTAB.a5.toList, p.bit ≠ n) → v[n] = s.OPM.val[n]) ∧
      (∃ v : Word, exec .ctApplyD5 s = .next { s with RES := ⟨v, true⟩ } ∧ tableMet s.CTAB.d5 v R ∧
        ∀ n : Fin 32, (∀ p ∈ s.CTAB.d5.toList, p.bit ≠ n) → v[n] = s.OPM.val[n])) ∧
    ((∃ r ∈ [Reg.opA, .opB, .opC, .opD, .opM], s.written r = false) →
      FaultsUnwritten .ctApplyA5 s ∧ FaultsUnwritten .ctApplyD5 s)

/-- R82: with no bit repeated, the order of the pairs of an entry and of the triples of a table does not matter, and
applying an entry or a table twice is applying it once. -/
def Obligations.ApplicationOrderFreeAndIdempotent : Prop :=
  (∀ (e e' : List BitRule) (v r : Word), bitsDistinct e → e.Perm e' →
    applyR1 e' v r = applyR1 e v r ∧ applyR1 e (applyR1 e v r) r = applyR1 e v r) ∧
  ∀ (T T' : Vector RefRule 5) (v : Word) (R : Vector Word 4), refBitsDistinct T → T.toList.Perm T'.toList →
    applyR2 T' v R = applyR2 T v R ∧ applyR2 T (applyR2 T v R) R = applyR2 T v R

/-! ### 7. Modification commands (43_constraint_tables.md) -/

/-- R89: R1_STEP #k has k in IDX and completes when W[k] is written. Its corrected value v is entry k applied to the step's
natural output with operand b as the reference; S[t] and CH[k] take it, and W[k] becomes the word that makes the step give it,
which is the old one when the natural output already meets the entry. Nothing else changes. With W[k] unwritten it faults. -/
def Obligations.R1StepCorrectsOneRegister : Prop :=
  ∀ (s : State) (k : Fin 16),
    encode (.r1Step k) &&& 0xFF0FFFFF = 0x00000030 ∧ (idxField (encode (.r1Step k))).toNat = k.val ∧
    (s.W[k].written = false → FaultsUnwritten (.r1Step k) s) ∧
    (s.W[k].written = true →
      let t : Fin 4 := [0, 3, 2, 1][k.val % 4]!
      let sh : Fin 32 := [3, 7, 11, 19][k.val % 4]!
      let natural := forwardOp .one s.S[t] s.S[t + 1] s.S[t + 2] s.S[t + 3] s.W[k].val sh
      let v := applyR1 s.CTAB.r1[k] natural s.S[t + 1]
      ∃ m : Word, forwardOp .one s.S[t] s.S[t + 1] s.S[t + 2] s.S[t + 3] m sh = v ∧
        (entryMet s.CTAB.r1[k] natural s.S[t + 1] → v = natural ∧ m = s.W[k].val) ∧
        exec (.r1Step k) s = .next
          { s with S := s.S.set t v, W := s.W.set k ⟨m, true⟩, CH := s.CH.set k ⟨v, true⟩ })

/-- R90, R124: R1_ALL completes when W[0..15] are written, with exactly the effect of R1_STEP #0, ..., R1_STEP #15 in increasing
order; and R1_STEP commands in any other order complete too. -/
def Obligations.R1AllIsSixteenR1Steps : Prop :=
  ∀ s : State, (∀ j : Fin 16, s.W[j].written = true) →
    (∃ t, exec .r1All s = .next t ∧
      runCommands [.r1Step 0, .r1Step 1, .r1Step 2, .r1Step 3, .r1Step 4, .r1Step 5, .r1Step 6, .r1Step 7,
        .r1Step 8, .r1Step 9, .r1Step 10, .r1Step 11, .r1Step 12, .r1Step 13, .r1Step 14, .r1Step 15] s = .next t) ∧
    ∀ ks : List (Fin 16), ∃ t, runCommands (ks.map .r1Step) s = .next t

/-- R90: after R1_ALL, round 1 of compress(S_in, W) computes exactly CH[0..15]; every round-1 condition holds on those values;
and S is (CH[12], CH[15], CH[14], CH[13]). -/
def Obligations.R1AllMakesEveryRound1ConditionHold : Prop :=
  ∀ s t : State, s.CTAB.wf → exec .r1All s = .next t →
    round1Values s.S t.block = steps16.map t.chain ∧
    (∀ k : Fin 16, entryMet s.CTAB.r1[k] (t.chain k) (chainReference s.S[1] t.chain k)) ∧
    t.S = #v[t.chain 12, t.chain 15, t.chain 14, t.chain 13] ∧
    ∀ k : Fin 16, t.W[k].written = true ∧ t.CH[k].written = true

/-- R91: A5_CORRECT completes when W[0] and CH[1..4] are written. S[0] takes the corrected a5; W[0] is the word whose round-2 step
gives it; CH[0] is a1 recomputed from I and that word; W[1..4] are the words whose round-1 steps keep d1, c1, b1 and a2. Nothing
else changes. -/
def Obligations.A5CorrectBackPropagates : Prop :=
  ∀ s : State, s.W[0].written = true →
    (∀ r ∈ [Reg.ch 1, .ch 2, .ch 3, .ch 4], s.written r = true) →
    let R : Vector Word 4 := #v[s.S[0], s.S[1], s.S[2], s.S[3]]
    let a5 := applyR2 s.CTAB.a5 (forwardOp .two s.S[0] s.S[1] s.S[2] s.S[3] s.W[0].val 3) R
    ∃ m0 m1 m2 m3 m4 a1 : Word,
      forwardOp .two s.S[0] s.S[1] s.S[2] s.S[3] m0 3 = a5 ∧
      forwardOp .one s.I[0] s.I[1] s.I[2] s.I[3] m0 3 = a1 ∧
      forwardOp .one s.I[3] a1 s.I[1] s.I[2] m1 7 = s.chain 1 ∧
      forwardOp .one s.I[2] (s.chain 1) a1 s.I[1] m2 11 = s.chain 2 ∧
      forwardOp .one s.I[1] (s.chain 2) (s.chain 1) a1 m3 19 = s.chain 3 ∧
      forwardOp .one a1 (s.chain 3) (s.chain 2) (s.chain 1) m4 3 = s.chain 4 ∧
      exec .a5Correct s = .next
        { s with
          S := s.S.set 0 a5
          W := ((((s.W.set 0 ⟨m0, true⟩).set 1 ⟨m1, true⟩).set 2 ⟨m2, true⟩).set 3 ⟨m3, true⟩).set 4 ⟨m4, true⟩
          CH := s.CH.set 0 ⟨a1, true⟩ }

/-- R92: D5_CORRECT completes when W[4], CH[0..3] and CH[5..8] are written. S[3] takes the corrected d5; W[4] is the word whose
round-2 step gives it; CH[4] is a2 recomputed from the chain and that word; W[5..8] are the words whose round-1 steps keep d2, c2,
b2 and a3. Nothing else changes. -/
def Obligations.D5CorrectBackPropagates : Prop :=
  ∀ s : State, s.W[4].written = true →
    (∀ r ∈ [Reg.ch 0, .ch 1, .ch 2, .ch 3, .ch 5, .ch 6, .ch 7, .ch 8], s.written r = true) →
    let R : Vector Word 4 := #v[s.S[0], s.S[1], s.S[2], s.S[3]]
    let d5 := applyR2 s.CTAB.d5 (forwardOp .two s.S[3] s.S[0] s.S[1] s.S[2] s.W[4].val 5) R
    ∃ m4 m5 m6 m7 m8 a2 : Word,
      forwardOp .two s.S[3] s.S[0] s.S[1] s.S[2] m4 5 = d5 ∧
      forwardOp .one (s.chain 0) (s.chain 3) (s.chain 2) (s.chain 1) m4 3 = a2 ∧
      forwardOp .one (s.chain 1) a2 (s.chain 3) (s.chain 2) m5 7 = s.chain 5 ∧
      forwardOp .one (s.chain 2) (s.chain 5) a2 (s.chain 3) m6 11 = s.chain 6 ∧
      forwardOp .one (s.chain 3) (s.chain 6) (s.chain 5) a2 m7 19 = s.chain 7 ∧
      forwardOp .one a2 (s.chain 7) (s.chain 6) (s.chain 5) m8 3 = s.chain 8 ∧
      exec .d5Correct s = .next
        { s with
          S := s.S.set 3 d5
          W := ((((s.W.set 4 ⟨m4, true⟩).set 5 ⟨m5, true⟩).set 6 ⟨m6, true⟩).set 7 ⟨m7, true⟩).set 8 ⟨m8, true⟩
          CH := s.CH.set 4 ⟨a2, true⟩ }

/-- R95: SEED, R1_ALL, A5_CORRECT, D5_CORRECT from init I, with any written W: (i) round 1 of compress(I, W_out) gives CH[0..15];
(ii) its a5 and d5 are the final S[0] and S[3] and meet the a5 and d5 tables; (iii) every round-1 condition holds but possibly those of
entries 0 and 4 and the equalToReference conditions of entries 1 and 5. -/
def Obligations.ModificationPhaseGuarantees : Prop :=
  ∀ s : State, s.CTAB.wf → (∀ j : Fin 16, s.W[j].written = true) →
    ∃ t, runCommands [.seed, .r1All, .a5Correct, .d5Correct] s = .next t ∧ t.I = s.I ∧
      round1Values t.I t.block = steps16.map t.chain ∧
      (round2Values t.I t.block).take 2 = [t.S[0], t.S[3]] ∧
      tableMet s.CTAB.a5 t.S[0] (runRound .one t.block t.I) ∧
      tableMet s.CTAB.d5 t.S[3] ((runRound .one t.block t.I).set 0 t.S[0]) ∧
      ∀ k : Fin 16, k ≠ 0 → k ≠ 4 → ∀ p ∈ s.CTAB.r1[k],
        ((k = 1 ∨ k = 5) → p.cond ≠ .equalToReference) →
        condMet p.cond (t.chain k) (chainReference t.I[1] t.chain k) p.bit

/-! ### 8. Byte order and the host's procedures (20_memory.md, 45_host_procedures.md) -/

/-- R34, R35, R36: packing 64 bytes into words and serializing a block are inverse to each other, least significant byte first, and
a state serializes word by word. -/
def Obligations.BlockBytesRoundTrip : Prop :=
  (∀ W : Vector Word 16, packBlock (serializeBlock W) = W ∧ (serializeBlock W).length = 64) ∧
  (∀ bs : List Byte, bs.length = 64 → serializeBlock (packBlock bs) = bs) ∧
  (∀ (bs : List Byte) (j : Fin 16) (n : Fin 4), bs.length = 64 →
    ((packBlock bs)[j].toNat / 2 ^ (8 * n.val)) % 256 = (bs.getD (4 * j.val + n.val) 0).toNat) ∧
  (∀ (x : Word) (n : Fin 4), (serializeWord x).length = 4 ∧
    ((serializeWord x).getD n.val 0).toNat = x.toNat / 2 ^ (8 * n.val) % 256) ∧
  ∀ x : Vector Word 4,
    serializeState x = serializeWord x[0] ++ serializeWord x[1] ++ serializeWord x[2] ++ serializeWord x[3]

/-- R98, R99: from a host whose Message Buffer holds the bytes `B`, any number of ingests and a finalize run to their end, when
at least one byte was ingested in all. With P the bytes `B` and those ingested now, N of them, finalize returns as padding
`(64 − N mod 64) mod 64` zero bytes; S is the fold of compress over the blocks of P with that padding; the buffer is empty; I and
CTAB are as before. -/
def Obligations.MessageBufferFoldsPaddedInput : Prop :=
  ∀ (s : State) (Ps : List (List Byte)) (js : List Job),
    s.driver.pending = [] → s.driver.jobs = Ps.map .ingest ++ .finalize :: js → s.driver.buffer.length < 64 →
    s.driver.buffer ++ Ps.flatten ≠ [] ∨ s.driver.ingested = true →
    let P := s.driver.buffer ++ Ps.flatten
    let pad := zeroBytes ((64 - P.length % 64) % 64)
    ∃ (k : Nat) (t : State), s.runsTo k t ∧ t.driver.pending = [] ∧ t.driver.jobs = js ∧
      t.driver.buffer = [] ∧ t.driver.zeroPadding = some pad ∧
      t.S = foldBlocks s.S ((List.range ((P.length + 63) / 64)).map fun n =>
        packBlock (((P ++ pad).drop (64 * n)).take 64)) ∧
      t.I = s.I ∧ t.CTAB = s.CTAB

/-- R99, D25: finalize of an input of no byte: with EMPTY_PREFIX_PAD = 0 it folds nothing, returns no padding and changes no
register; with 64 it folds one block of zeros and returns 64 zero bytes. -/
def Obligations.FinalizeOfEmptyPrefix : Prop :=
  ∀ (s : State) (js : List Job),
    s.driver.pending = [] → s.driver.jobs = .finalize :: js → s.driver.buffer = [] → s.driver.ingested = false →
    (s.driver.emptyPrefixPad = .pad0 → ∃ k d, s.runsTo k { s with driver := d } ∧
      d.zeroPadding = some [] ∧ d.jobs = js ∧ d.pending = []) ∧
    (s.driver.emptyPrefixPad = .pad64 → ∃ k t, s.runsTo k t ∧
      t.driver.zeroPadding = some (List.replicate 64 0) ∧ t.driver.jobs = js ∧ t.driver.pending = [] ∧
      t.S = compress s.S (vec16 fun _ => 0) ∧ t.I = s.I)

/-- R104: the sibling of a block differs from it, in exactly the words 1, 2 and 12, by the three deltas; so do its bytes. -/
def Obligations.SiblingDiffersInThreeWords : Prop :=
  ∀ w : Vector Word 16, sibling w ≠ w ∧ serializeBlock (sibling w) ≠ serializeBlock w ∧
    (sibling w)[1] = w[1] + 0x80000000 ∧ (sibling w)[2] = w[2] + 0x70000000 ∧
    (sibling w)[12] = w[12] - 0x00010000 ∧
    ∀ j : Fin 16, (sibling w)[j] ≠ w[j] ↔ j = 1 ∨ j = 2 ∨ j = 12

/-- R97: when RAND cannot give the 16 words of a trial, the search stops with RandomnessExhausted. That it stops before any of the
16 is written, when fewer than 16 are left, is the model's reading (assumption log 10). -/
def Obligations.TooFewRandomWordsAbortTheSearch : Prop :=
  ∀ (s : State) (group : Option Nat) (js : List Job), s.driver.pending = [] → s.driver.jobs = .find group :: js →
    s.driver.phase = .modify → s.driver.rand.length < 16 → step s = .fault .randomnessExhausted

/-- R101 to R108: a trial with the 16 words RAND gives runs to its boundary, whatever budget or cancellation stands. block1 is
what SEED, R1_ALL, A5_CORRECT and D5_CORRECT make of those words. The search returns (block1, block2) exactly when
compress(I, block1) = compress(I, block2) with block2 the sibling. Otherwise it returns no pair: it ends when the budget is spent
(R107) or a cancellation is asked (R108), and else the next trial begins (R105, R106). I is as before. How a cancellation is asked
is the model's choice (assumption log 24). -/
def Obligations.TrialReturnsExactlyTheCollisions : Prop :=
  ∀ (s : State) (group : Option Nat) (u : Vector Word 16) (rest : List Word) (js : List Job),
    s.driver.pending = [] → s.driver.jobs = .find group :: js → s.driver.phase = .generate →
    s.driver.rand = u.toList ++ rest →
    let ended := s.driver.cancelAsked group = true ∨ ∃ n, s.driver.trialBudget = some n ∧ n ≤ s.driver.trials + 1
    ∃ (k : Nat) (m t : State), s.runsTo k t ∧ t.I = s.I ∧ t.driver.pending = [] ∧ t.driver.rand = rest ∧
      runCommands [.seed, .r1All, .a5Correct, .d5Correct] { s with W := vec16 fun j => ⟨u[j], true⟩ } = .next m ∧
      (compress s.I m.block = compress s.I (sibling m.block) →
        t.driver.result = some (.found m.block (sibling m.block)) ∧ t.driver.jobs = js) ∧
      (compress s.I m.block ≠ compress s.I (sibling m.block) → ended →
        (t.driver.result = some .cancelled ∨ t.driver.result = some .budgetSpent) ∧ t.driver.jobs = js) ∧
      (compress s.I m.block ≠ compress s.I (sibling m.block) → ¬ ended →
        t.driver.result = none ∧ t.driver.jobs = .find group :: js ∧ t.driver.phase = .generate ∧
        t.driver.trials = s.driver.trials + 1)

/-- R107, R108: at the boundary of a failed trial the search stops when the budget is spent or another worker has succeeded, and
otherwise begins the next trial; no register of the block changes. That a cancellation is reported before a budget spent at the
same boundary is the model's choice (assumption log 23). -/
def Obligations.FailedTrialBoundary : Prop :=
  ∀ (s : State) (group : Option Nat) (b1 b2 : Vector Word 16) (h1 : Vector Word 4) (js : List Job),
    s.driver.pending = [] → s.driver.jobs = .find group :: js → s.driver.phase = .compare b1 b2 h1 →
    h1 ≠ s.driver.readState →
    ∃ d, step s = .next { s with driver := d } ∧
      (s.driver.cancelAsked group = true → d.result = some .cancelled ∧ d.jobs = js) ∧
      (s.driver.cancelAsked group = false → ∀ n, s.driver.trialBudget = some n → n ≤ s.driver.trials + 1 →
        d.result = some .budgetSpent ∧ d.jobs = js) ∧
      (s.driver.cancelAsked group = false → (∀ n, s.driver.trialBudget = some n → s.driver.trials + 1 < n) →
        d.result = s.driver.result ∧ d.jobs = .find group :: js ∧ d.phase = .generate ∧ d.pending = [] ∧
        d.trials = s.driver.trials + 1)

/-- R110: once the host has hit a caller-layer fault it issues no further access, whatever it is asked afterwards. (i) The machine
of such a host stays as it is. (ii) When the fault comes, no register of any instance changes, and no other instance is touched.
(iii) No step of the platform ends it, and none but a reset of that instance changes a register of its block, which keeps what the
last completed access left. How the fault comes is the model's reading (assumption log 16). -/
def Obligations.HostFaultEndsItsAccesses : Prop :=
  (∀ s : State, s.driver.faulted = true → s.driver.pending = [] ∧ ∀ k, s.runsTo k s) ∧
  (∀ (s : State) (js : List Job), s.driver.pending = [] → s.driver.jobs = .ioFault :: js → s.driver.faulted = true) ∧
  (∀ (p : Platform) (k : Nat) (rest : List PlatformEvent), p.schedule = .ioFault k :: rest →
    ∃ q, p.step = .next q ∧ q.schedule = rest ∧ q.searches = p.searches ∧
      (∀ n, n ≠ k → q.workers[n]? = p.workers[n]?) ∧
      ∀ w, p.workers[k]? = some w → ∃ w' d, q.workers[k]? = some w' ∧ w'.base = w.base ∧
        w'.state = { w.state with driver := d } ∧ d.faulted = true) ∧
  ∀ (p q : Platform) (n : Nat) (w : Worker), p.step = .next q → p.workers[n]? = some w → w.state.driver.faulted = true →
    ∃ w', q.workers[n]? = some w' ∧ w'.base = w.base ∧ w'.state.driver.faulted = true ∧
      (p.schedule.head? ≠ some (.reset n) → ∃ d, w'.state = { w.state with driver := d })

/-- R52, R127: a host program of reads of written registers runs to its end, and its observation is the values of those
registers, in order, and the block's registers at that point, which are as they were; no read made before it counts. When a
program starts is the model's choice (assumption log 28). -/
def Obligations.ProgramObservesItsOwnReads : Prop :=
  ∀ (s : State) (rs : List Reg), s.driver.pending = [] → s.driver.jobs = [] →
    (∀ r ∈ rs, s.written r = true) →
    ∃ k d, (s.withProgram (rs.map .rd)).runsTo k { s with driver := d } ∧
      ({ s with driver := d } : State).observation = some ⟨rs.map s.value, allRegs.map s.seen⟩

/-- R117, R108: a step of the platform moves one instance, which takes a step of its own; every other instance keeps all its
registers and its base, and at most is asked to cancel its part of a parallel search of which it is a worker. That the schedule
names the instance, and how the others are asked, are the model's choices (assumption logs 17, 24). -/
def Obligations.PlatformStepMovesOneInstance : Prop :=
  ∀ (p q : Platform) (k : Nat) (rest : List PlatformEvent), p.schedule = .move k :: rest → p.step = .next q →
    q.schedule = rest ∧ q.workers.length = p.workers.length ∧
    (∀ w, p.workers[k]? = some w → ∃ w', q.workers[k]? = some w' ∧ w'.base = w.base ∧
      step w.state = .next w'.state) ∧
    ∀ (n : Nat) (w : Worker), n ≠ k → p.workers[n]? = some w →
      ∃ (l : List Nat) (w' : Worker), q.workers[n]? = some w' ∧ w'.base = w.base ∧
        w'.state = { w.state with driver := { w.state.driver with cancelRequests := l } } ∧
        (l = w.state.driver.cancelRequests ∨
          ∃ (g : Nat) (x : ParallelSearch), p.searches[g]? = some x ∧ n ∈ x.members ∧
            l = g :: w.state.driver.cancelRequests)

/-- R108: when a worker of a parallel search completes a successful trial from the shared init and none did before, its pair is
the result of that search, every other worker of it is asked to cancel it, and no other instance and no other search changes.
How searches are numbered and cancelled is the model's choice (assumption logs 24, 27). -/
def Obligations.FirstSuccessSuppliesTheResult : Prop :=
  ∀ (p : Platform) (k g : Nat) (rest : List PlatformEvent) (w : Worker) (x : ParallelSearch) (js : List Job)
    (b1 b2 : Vector Word 16) (h1 : Vector Word 4),
    p.schedule = .move k :: rest → p.workers[k]? = some w → w.state.driver.pending = [] →
    w.state.driver.jobs = .find (some g) :: js → w.state.driver.result = none →
    w.state.driver.phase = .compare b1 b2 h1 → h1 = w.state.driver.readState →
    p.searches[g]? = some x → x.result = none → k ∈ x.members → w.state.I = x.init →
    ∃ q, p.step = .next q ∧
      q.searches[g]? = some { x with result := some (k, b1, b2) } ∧
      (∀ g', g' ≠ g → q.searches[g']? = p.searches[g']?) ∧
      (∀ (n : Nat) (v : Worker), n ≠ k → p.workers[n]? = some v → n ∈ x.members →
        ∃ v', q.workers[n]? = some v' ∧ v'.state.driver.cancelAsked (some g) = true) ∧
      ∀ n : Nat, n ≠ k → n ∉ x.members → q.workers[n]? = p.workers[n]?

/-- R108: a parallel search gives each of its workers the same requests: write the shared init into its own I, then search; other
instances are as they were. A worker that serves the first of them gets that init in I and keeps every other register. How a
search begins is the model's choice (assumption log 27). -/
def Obligations.ParallelSearchSharesItsInit : Prop :=
  (∀ (p : Platform) (members : List Nat) (init : Vector Word 4) (rest : List PlatformEvent),
    p.schedule = .search members init :: rest →
    ∃ q, p.step = .next q ∧ q.searches = p.searches ++ [⟨members, init, none⟩] ∧
      (∀ n, n ∉ members → q.workers[n]? = p.workers[n]?) ∧
      ∀ (n : Nat) (w : Worker), n ∈ members → p.workers[n]? = some w →
        ∃ w', q.workers[n]? = some w' ∧ w'.base = w.base ∧
          w'.state = { w.state with driver :=
            { w.state.driver with
              jobs := w.state.driver.jobs ++ [.writeInit init, .find (some p.searches.length)] } }) ∧
  ∀ (s : State) (init : Vector Word 4) (js : List Job),
    s.driver.pending = [] → s.driver.jobs = .writeInit init :: js →
    ∃ k d, s.runsTo k { s with I := init, driver := d } ∧ d.pending = [] ∧ d.jobs = js

/-- R117, R119: a reset of an instance of the platform puts that instance's registers at their values after reset, with its tables
unaffected; every other instance is as it was. That its host's side stays too is the model's choice (assumption log 21). -/
def Obligations.PlatformResetIsOfOneInstance : Prop :=
  ∀ (p : Platform) (k : Nat) (rest : List PlatformEvent), p.schedule = .reset k :: rest →
    ∃ q, p.step = .next q ∧ q.schedule = rest ∧ q.workers.length = p.workers.length ∧
      (∀ n, n ≠ k → q.workers[n]? = p.workers[n]?) ∧
      ∀ w, p.workers[k]? = some w → ∃ w', q.workers[k]? = some w' ∧ w'.base = w.base ∧
        w'.state.driver = w.state.driver ∧ w'.state.CTAB = w.state.CTAB ∧
        w'.state.S = #v[0x67452301, 0xEFCDAB89, 0x98BADCFE, 0x10325476] ∧ w'.state.I = w'.state.S ∧
        w'.state.CMD = 0 ∧ w'.state.ILL = false ∧
        ∀ r, w'.state.written r = true ↔ r = .cmd ∨ r = .status ∨ (∃ n, r = .s n) ∨ ∃ n, r = .i n

/-- R8, R98, R104, R107, R108: every step of the platform keeps the invariant of each instance, and every result of a parallel
search a pair of siblings. -/
def Obligations.EveryPlatformStepKeepsInv : Prop :=
  ∀ p q : Platform, p.Inv → p.step = .next q → q.Inv

/-- R9, R27, R117: on a well-formed platform, whose windows do not overlap (the model's choice, assumption log 26), a step keeps
it well-formed, and the host address of an offset of an instance's window is routed to that instance and that offset. -/
def Obligations.WindowsAreRoutedToTheirInstances : Prop :=
  ∀ p : Platform, p.wf = true →
    (∀ q, p.step = .next q → q.wf = true) ∧
    ∀ (n : Nat) (w : Worker) (off : Nat), p.workers[n]? = some w → off ≤ 0xFF →
      p.route (busAddress w.base off) = some (n, off)
end

