-- ==== Sys2Proof/Laws/State.lean ====
section
/-!
SUPPORT. The small lemmas of the state record: one per field per named update of Machine/Ops.lean, each true by `rfl`, so
that no later proof unfolds an update; and what each update leaves readable through the accessors.
-/

namespace Sys2Proof.Machine

section Updates
variable (s : State)

/-! ### setS -/

@[simp] theorem State.setS_S (n : Fin 4) (v : Word) : (s.setS n v).S = s.S.set n v := rfl
@[simp] theorem State.setS_I (n : Fin 4) (v : Word) : (s.setS n v).I = s.I := rfl
@[simp] theorem State.setS_W (n : Fin 4) (v : Word) : (s.setS n v).W = s.W := rfl
@[simp] theorem State.setS_CH (n : Fin 4) (v : Word) : (s.setS n v).CH = s.CH := rfl
@[simp] theorem State.setS_OPA (n : Fin 4) (v : Word) : (s.setS n v).OPA = s.OPA := rfl
@[simp] theorem State.setS_OPB (n : Fin 4) (v : Word) : (s.setS n v).OPB = s.OPB := rfl
@[simp] theorem State.setS_OPC (n : Fin 4) (v : Word) : (s.setS n v).OPC = s.OPC := rfl
@[simp] theorem State.setS_OPD (n : Fin 4) (v : Word) : (s.setS n v).OPD = s.OPD := rfl
@[simp] theorem State.setS_OPM (n : Fin 4) (v : Word) : (s.setS n v).OPM = s.OPM := rfl
@[simp] theorem State.setS_RES (n : Fin 4) (v : Word) : (s.setS n v).RES = s.RES := rfl
@[simp] theorem State.setS_LK0 (n : Fin 4) (v : Word) : (s.setS n v).LK0 = s.LK0 := rfl
@[simp] theorem State.setS_LK1 (n : Fin 4) (v : Word) : (s.setS n v).LK1 = s.LK1 := rfl
@[simp] theorem State.setS_LK2 (n : Fin 4) (v : Word) : (s.setS n v).LK2 = s.LK2 := rfl
@[simp] theorem State.setS_CMD (n : Fin 4) (v : Word) : (s.setS n v).CMD = s.CMD := rfl
@[simp] theorem State.setS_ILL (n : Fin 4) (v : Word) : (s.setS n v).ILL = s.ILL := rfl
@[simp] theorem State.setS_CTAB (n : Fin 4) (v : Word) : (s.setS n v).CTAB = s.CTAB := rfl
@[simp] theorem State.setS_driver (n : Fin 4) (v : Word) : (s.setS n v).driver = s.driver := rfl

/-! ### setI -/

@[simp] theorem State.setI_S (n : Fin 4) (v : Word) : (s.setI n v).S = s.S := rfl
@[simp] theorem State.setI_I (n : Fin 4) (v : Word) : (s.setI n v).I = s.I.set n v := rfl
@[simp] theorem State.setI_W (n : Fin 4) (v : Word) : (s.setI n v).W = s.W := rfl
@[simp] theorem State.setI_CH (n : Fin 4) (v : Word) : (s.setI n v).CH = s.CH := rfl
@[simp] theorem State.setI_OPA (n : Fin 4) (v : Word) : (s.setI n v).OPA = s.OPA := rfl
@[simp] theorem State.setI_OPB (n : Fin 4) (v : Word) : (s.setI n v).OPB = s.OPB := rfl
@[simp] theorem State.setI_OPC (n : Fin 4) (v : Word) : (s.setI n v).OPC = s.OPC := rfl
@[simp] theorem State.setI_OPD (n : Fin 4) (v : Word) : (s.setI n v).OPD = s.OPD := rfl
@[simp] theorem State.setI_OPM (n : Fin 4) (v : Word) : (s.setI n v).OPM = s.OPM := rfl
@[simp] theorem State.setI_RES (n : Fin 4) (v : Word) : (s.setI n v).RES = s.RES := rfl
@[simp] theorem State.setI_LK0 (n : Fin 4) (v : Word) : (s.setI n v).LK0 = s.LK0 := rfl
@[simp] theorem State.setI_LK1 (n : Fin 4) (v : Word) : (s.setI n v).LK1 = s.LK1 := rfl
@[simp] theorem State.setI_LK2 (n : Fin 4) (v : Word) : (s.setI n v).LK2 = s.LK2 := rfl
@[simp] theorem State.setI_CMD (n : Fin 4) (v : Word) : (s.setI n v).CMD = s.CMD := rfl
@[simp] theorem State.setI_ILL (n : Fin 4) (v : Word) : (s.setI n v).ILL = s.ILL := rfl
@[simp] theorem State.setI_CTAB (n : Fin 4) (v : Word) : (s.setI n v).CTAB = s.CTAB := rfl
@[simp] theorem State.setI_driver (n : Fin 4) (v : Word) : (s.setI n v).driver = s.driver := rfl

/-! ### setChain -/

@[simp] theorem State.setChain_S (x : Vector Word 4) : (s.setChain x).S = x := rfl
@[simp] theorem State.setChain_I (x : Vector Word 4) : (s.setChain x).I = s.I := rfl
@[simp] theorem State.setChain_W (x : Vector Word 4) : (s.setChain x).W = s.W := rfl
@[simp] theorem State.setChain_CH (x : Vector Word 4) : (s.setChain x).CH = s.CH := rfl
@[simp] theorem State.setChain_OPA (x : Vector Word 4) : (s.setChain x).OPA = s.OPA := rfl
@[simp] theorem State.setChain_OPB (x : Vector Word 4) : (s.setChain x).OPB = s.OPB := rfl
@[simp] theorem State.setChain_OPC (x : Vector Word 4) : (s.setChain x).OPC = s.OPC := rfl
@[simp] theorem State.setChain_OPD (x : Vector Word 4) : (s.setChain x).OPD = s.OPD := rfl
@[simp] theorem State.setChain_OPM (x : Vector Word 4) : (s.setChain x).OPM = s.OPM := rfl
@[simp] theorem State.setChain_RES (x : Vector Word 4) : (s.setChain x).RES = s.RES := rfl
@[simp] theorem State.setChain_LK0 (x : Vector Word 4) : (s.setChain x).LK0 = s.LK0 := rfl
@[simp] theorem State.setChain_LK1 (x : Vector Word 4) : (s.setChain x).LK1 = s.LK1 := rfl
@[simp] theorem State.setChain_LK2 (x : Vector Word 4) : (s.setChain x).LK2 = s.LK2 := rfl
@[simp] theorem State.setChain_CMD (x : Vector Word 4) : (s.setChain x).CMD = s.CMD := rfl
@[simp] theorem State.setChain_ILL (x : Vector Word 4) : (s.setChain x).ILL = s.ILL := rfl
@[simp] theorem State.setChain_CTAB (x : Vector Word 4) : (s.setChain x).CTAB = s.CTAB := rfl
@[simp] theorem State.setChain_driver (x : Vector Word 4) : (s.setChain x).driver = s.driver := rfl

/-! ### setInit -/

@[simp] theorem State.setInit_S (x : Vector Word 4) : (s.setInit x).S = s.S := rfl
@[simp] theorem State.setInit_I (x : Vector Word 4) : (s.setInit x).I = x := rfl
@[simp] theorem State.setInit_W (x : Vector Word 4) : (s.setInit x).W = s.W := rfl
@[simp] theorem State.setInit_CH (x : Vector Word 4) : (s.setInit x).CH = s.CH := rfl
@[simp] theorem State.setInit_OPA (x : Vector Word 4) : (s.setInit x).OPA = s.OPA := rfl
@[simp] theorem State.setInit_OPB (x : Vector Word 4) : (s.setInit x).OPB = s.OPB := rfl
@[simp] theorem State.setInit_OPC (x : Vector Word 4) : (s.setInit x).OPC = s.OPC := rfl
@[simp] theorem State.setInit_OPD (x : Vector Word 4) : (s.setInit x).OPD = s.OPD := rfl
@[simp] theorem State.setInit_OPM (x : Vector Word 4) : (s.setInit x).OPM = s.OPM := rfl
@[simp] theorem State.setInit_RES (x : Vector Word 4) : (s.setInit x).RES = s.RES := rfl
@[simp] theorem State.setInit_LK0 (x : Vector Word 4) : (s.setInit x).LK0 = s.LK0 := rfl
@[simp] theorem State.setInit_LK1 (x : Vector Word 4) : (s.setInit x).LK1 = s.LK1 := rfl
@[simp] theorem State.setInit_LK2 (x : Vector Word 4) : (s.setInit x).LK2 = s.LK2 := rfl
@[simp] theorem State.setInit_CMD (x : Vector Word 4) : (s.setInit x).CMD = s.CMD := rfl
@[simp] theorem State.setInit_ILL (x : Vector Word 4) : (s.setInit x).ILL = s.ILL := rfl
@[simp] theorem State.setInit_CTAB (x : Vector Word 4) : (s.setInit x).CTAB = s.CTAB := rfl
@[simp] theorem State.setInit_driver (x : Vector Word 4) : (s.setInit x).driver = s.driver := rfl

/-! ### setW -/

@[simp] theorem State.setW_S (j : Fin 16) (v : Word) : (s.setW j v).S = s.S := rfl
@[simp] theorem State.setW_I (j : Fin 16) (v : Word) : (s.setW j v).I = s.I := rfl
@[simp] theorem State.setW_W (j : Fin 16) (v : Word) : (s.setW j v).W = s.W.set j (.of v) := rfl
@[simp] theorem State.setW_CH (j : Fin 16) (v : Word) : (s.setW j v).CH = s.CH := rfl
@[simp] theorem State.setW_OPA (j : Fin 16) (v : Word) : (s.setW j v).OPA = s.OPA := rfl
@[simp] theorem State.setW_OPB (j : Fin 16) (v : Word) : (s.setW j v).OPB = s.OPB := rfl
@[simp] theorem State.setW_OPC (j : Fin 16) (v : Word) : (s.setW j v).OPC = s.OPC := rfl
@[simp] theorem State.setW_OPD (j : Fin 16) (v : Word) : (s.setW j v).OPD = s.OPD := rfl
@[simp] theorem State.setW_OPM (j : Fin 16) (v : Word) : (s.setW j v).OPM = s.OPM := rfl
@[simp] theorem State.setW_RES (j : Fin 16) (v : Word) : (s.setW j v).RES = s.RES := rfl
@[simp] theorem State.setW_LK0 (j : Fin 16) (v : Word) : (s.setW j v).LK0 = s.LK0 := rfl
@[simp] theorem State.setW_LK1 (j : Fin 16) (v : Word) : (s.setW j v).LK1 = s.LK1 := rfl
@[simp] theorem State.setW_LK2 (j : Fin 16) (v : Word) : (s.setW j v).LK2 = s.LK2 := rfl
@[simp] theorem State.setW_CMD (j : Fin 16) (v : Word) : (s.setW j v).CMD = s.CMD := rfl
@[simp] theorem State.setW_ILL (j : Fin 16) (v : Word) : (s.setW j v).ILL = s.ILL := rfl
@[simp] theorem State.setW_CTAB (j : Fin 16) (v : Word) : (s.setW j v).CTAB = s.CTAB := rfl
@[simp] theorem State.setW_driver (j : Fin 16) (v : Word) : (s.setW j v).driver = s.driver := rfl

/-! ### setCH -/

@[simp] theorem State.setCH_S (k : Fin 16) (v : Word) : (s.setCH k v).S = s.S := rfl
@[simp] theorem State.setCH_I (k : Fin 16) (v : Word) : (s.setCH k v).I = s.I := rfl
@[simp] theorem State.setCH_W (k : Fin 16) (v : Word) : (s.setCH k v).W = s.W := rfl
@[simp] theorem State.setCH_CH (k : Fin 16) (v : Word) : (s.setCH k v).CH = s.CH.set k (.of v) := rfl
@[simp] theorem State.setCH_OPA (k : Fin 16) (v : Word) : (s.setCH k v).OPA = s.OPA := rfl
@[simp] theorem State.setCH_OPB (k : Fin 16) (v : Word) : (s.setCH k v).OPB = s.OPB := rfl
@[simp] theorem State.setCH_OPC (k : Fin 16) (v : Word) : (s.setCH k v).OPC = s.OPC := rfl
@[simp] theorem State.setCH_OPD (k : Fin 16) (v : Word) : (s.setCH k v).OPD = s.OPD := rfl
@[simp] theorem State.setCH_OPM (k : Fin 16) (v : Word) : (s.setCH k v).OPM = s.OPM := rfl
@[simp] theorem State.setCH_RES (k : Fin 16) (v : Word) : (s.setCH k v).RES = s.RES := rfl
@[simp] theorem State.setCH_LK0 (k : Fin 16) (v : Word) : (s.setCH k v).LK0 = s.LK0 := rfl
@[simp] theorem State.setCH_LK1 (k : Fin 16) (v : Word) : (s.setCH k v).LK1 = s.LK1 := rfl
@[simp] theorem State.setCH_LK2 (k : Fin 16) (v : Word) : (s.setCH k v).LK2 = s.LK2 := rfl
@[simp] theorem State.setCH_CMD (k : Fin 16) (v : Word) : (s.setCH k v).CMD = s.CMD := rfl
@[simp] theorem State.setCH_ILL (k : Fin 16) (v : Word) : (s.setCH k v).ILL = s.ILL := rfl
@[simp] theorem State.setCH_CTAB (k : Fin 16) (v : Word) : (s.setCH k v).CTAB = s.CTAB := rfl
@[simp] theorem State.setCH_driver (k : Fin 16) (v : Word) : (s.setCH k v).driver = s.driver := rfl

/-! ### setRES -/

@[simp] theorem State.setRES_S (v : Word) : (s.setRES v).S = s.S := rfl
@[simp] theorem State.setRES_I (v : Word) : (s.setRES v).I = s.I := rfl
@[simp] theorem State.setRES_W (v : Word) : (s.setRES v).W = s.W := rfl
@[simp] theorem State.setRES_CH (v : Word) : (s.setRES v).CH = s.CH := rfl
@[simp] theorem State.setRES_OPA (v : Word) : (s.setRES v).OPA = s.OPA := rfl
@[simp] theorem State.setRES_OPB (v : Word) : (s.setRES v).OPB = s.OPB := rfl
@[simp] theorem State.setRES_OPC (v : Word) : (s.setRES v).OPC = s.OPC := rfl
@[simp] theorem State.setRES_OPD (v : Word) : (s.setRES v).OPD = s.OPD := rfl
@[simp] theorem State.setRES_OPM (v : Word) : (s.setRES v).OPM = s.OPM := rfl
@[simp] theorem State.setRES_RES (v : Word) : (s.setRES v).RES = .of v := rfl
@[simp] theorem State.setRES_LK0 (v : Word) : (s.setRES v).LK0 = s.LK0 := rfl
@[simp] theorem State.setRES_LK1 (v : Word) : (s.setRES v).LK1 = s.LK1 := rfl
@[simp] theorem State.setRES_LK2 (v : Word) : (s.setRES v).LK2 = s.LK2 := rfl
@[simp] theorem State.setRES_CMD (v : Word) : (s.setRES v).CMD = s.CMD := rfl
@[simp] theorem State.setRES_ILL (v : Word) : (s.setRES v).ILL = s.ILL := rfl
@[simp] theorem State.setRES_CTAB (v : Word) : (s.setRES v).CTAB = s.CTAB := rfl
@[simp] theorem State.setRES_driver (v : Word) : (s.setRES v).driver = s.driver := rfl

/-! ### setLK -/

@[simp] theorem State.setLK_S (x y z : Word) : (s.setLK x y z).S = s.S := rfl
@[simp] theorem State.setLK_I (x y z : Word) : (s.setLK x y z).I = s.I := rfl
@[simp] theorem State.setLK_W (x y z : Word) : (s.setLK x y z).W = s.W := rfl
@[simp] theorem State.setLK_CH (x y z : Word) : (s.setLK x y z).CH = s.CH := rfl
@[simp] theorem State.setLK_OPA (x y z : Word) : (s.setLK x y z).OPA = s.OPA := rfl
@[simp] theorem State.setLK_OPB (x y z : Word) : (s.setLK x y z).OPB = s.OPB := rfl
@[simp] theorem State.setLK_OPC (x y z : Word) : (s.setLK x y z).OPC = s.OPC := rfl
@[simp] theorem State.setLK_OPD (x y z : Word) : (s.setLK x y z).OPD = s.OPD := rfl
@[simp] theorem State.setLK_OPM (x y z : Word) : (s.setLK x y z).OPM = s.OPM := rfl
@[simp] theorem State.setLK_RES (x y z : Word) : (s.setLK x y z).RES = s.RES := rfl
@[simp] theorem State.setLK_LK0 (x y z : Word) : (s.setLK x y z).LK0 = .of x := rfl
@[simp] theorem State.setLK_LK1 (x y z : Word) : (s.setLK x y z).LK1 = .of y := rfl
@[simp] theorem State.setLK_LK2 (x y z : Word) : (s.setLK x y z).LK2 = .of z := rfl
@[simp] theorem State.setLK_CMD (x y z : Word) : (s.setLK x y z).CMD = s.CMD := rfl
@[simp] theorem State.setLK_ILL (x y z : Word) : (s.setLK x y z).ILL = s.ILL := rfl
@[simp] theorem State.setLK_CTAB (x y z : Word) : (s.setLK x y z).CTAB = s.CTAB := rfl
@[simp] theorem State.setLK_driver (x y z : Word) : (s.setLK x y z).driver = s.driver := rfl

/-! ### setCMD -/

@[simp] theorem State.setCMD_S (c : Word) : (s.setCMD c).S = s.S := rfl
@[simp] theorem State.setCMD_I (c : Word) : (s.setCMD c).I = s.I := rfl
@[simp] theorem State.setCMD_W (c : Word) : (s.setCMD c).W = s.W := rfl
@[simp] theorem State.setCMD_CH (c : Word) : (s.setCMD c).CH = s.CH := rfl
@[simp] theorem State.setCMD_OPA (c : Word) : (s.setCMD c).OPA = s.OPA := rfl
@[simp] theorem State.setCMD_OPB (c : Word) : (s.setCMD c).OPB = s.OPB := rfl
@[simp] theorem State.setCMD_OPC (c : Word) : (s.setCMD c).OPC = s.OPC := rfl
@[simp] theorem State.setCMD_OPD (c : Word) : (s.setCMD c).OPD = s.OPD := rfl
@[simp] theorem State.setCMD_OPM (c : Word) : (s.setCMD c).OPM = s.OPM := rfl
@[simp] theorem State.setCMD_RES (c : Word) : (s.setCMD c).RES = s.RES := rfl
@[simp] theorem State.setCMD_LK0 (c : Word) : (s.setCMD c).LK0 = s.LK0 := rfl
@[simp] theorem State.setCMD_LK1 (c : Word) : (s.setCMD c).LK1 = s.LK1 := rfl
@[simp] theorem State.setCMD_LK2 (c : Word) : (s.setCMD c).LK2 = s.LK2 := rfl
@[simp] theorem State.setCMD_CMD (c : Word) : (s.setCMD c).CMD = c := rfl
@[simp] theorem State.setCMD_ILL (c : Word) : (s.setCMD c).ILL = s.ILL := rfl
@[simp] theorem State.setCMD_CTAB (c : Word) : (s.setCMD c).CTAB = s.CTAB := rfl
@[simp] theorem State.setCMD_driver (c : Word) : (s.setCMD c).driver = s.driver := rfl

/-! ### setILL -/

@[simp] theorem State.setILL_S (b : Bool) : (s.setILL b).S = s.S := rfl
@[simp] theorem State.setILL_I (b : Bool) : (s.setILL b).I = s.I := rfl
@[simp] theorem State.setILL_W (b : Bool) : (s.setILL b).W = s.W := rfl
@[simp] theorem State.setILL_CH (b : Bool) : (s.setILL b).CH = s.CH := rfl
@[simp] theorem State.setILL_OPA (b : Bool) : (s.setILL b).OPA = s.OPA := rfl
@[simp] theorem State.setILL_OPB (b : Bool) : (s.setILL b).OPB = s.OPB := rfl
@[simp] theorem State.setILL_OPC (b : Bool) : (s.setILL b).OPC = s.OPC := rfl
@[simp] theorem State.setILL_OPD (b : Bool) : (s.setILL b).OPD = s.OPD := rfl
@[simp] theorem State.setILL_OPM (b : Bool) : (s.setILL b).OPM = s.OPM := rfl
@[simp] theorem State.setILL_RES (b : Bool) : (s.setILL b).RES = s.RES := rfl
@[simp] theorem State.setILL_LK0 (b : Bool) : (s.setILL b).LK0 = s.LK0 := rfl
@[simp] theorem State.setILL_LK1 (b : Bool) : (s.setILL b).LK1 = s.LK1 := rfl
@[simp] theorem State.setILL_LK2 (b : Bool) : (s.setILL b).LK2 = s.LK2 := rfl
@[simp] theorem State.setILL_CMD (b : Bool) : (s.setILL b).CMD = s.CMD := rfl
@[simp] theorem State.setILL_ILL (b : Bool) : (s.setILL b).ILL = b := rfl
@[simp] theorem State.setILL_CTAB (b : Bool) : (s.setILL b).CTAB = s.CTAB := rfl
@[simp] theorem State.setILL_driver (b : Bool) : (s.setILL b).driver = s.driver := rfl

/-! ### setDriver -/

@[simp] theorem State.setDriver_S (d : Driver) : (s.setDriver d).S = s.S := rfl
@[simp] theorem State.setDriver_I (d : Driver) : (s.setDriver d).I = s.I := rfl
@[simp] theorem State.setDriver_W (d : Driver) : (s.setDriver d).W = s.W := rfl
@[simp] theorem State.setDriver_CH (d : Driver) : (s.setDriver d).CH = s.CH := rfl
@[simp] theorem State.setDriver_OPA (d : Driver) : (s.setDriver d).OPA = s.OPA := rfl
@[simp] theorem State.setDriver_OPB (d : Driver) : (s.setDriver d).OPB = s.OPB := rfl
@[simp] theorem State.setDriver_OPC (d : Driver) : (s.setDriver d).OPC = s.OPC := rfl
@[simp] theorem State.setDriver_OPD (d : Driver) : (s.setDriver d).OPD = s.OPD := rfl
@[simp] theorem State.setDriver_OPM (d : Driver) : (s.setDriver d).OPM = s.OPM := rfl
@[simp] theorem State.setDriver_RES (d : Driver) : (s.setDriver d).RES = s.RES := rfl
@[simp] theorem State.setDriver_LK0 (d : Driver) : (s.setDriver d).LK0 = s.LK0 := rfl
@[simp] theorem State.setDriver_LK1 (d : Driver) : (s.setDriver d).LK1 = s.LK1 := rfl
@[simp] theorem State.setDriver_LK2 (d : Driver) : (s.setDriver d).LK2 = s.LK2 := rfl
@[simp] theorem State.setDriver_CMD (d : Driver) : (s.setDriver d).CMD = s.CMD := rfl
@[simp] theorem State.setDriver_ILL (d : Driver) : (s.setDriver d).ILL = s.ILL := rfl
@[simp] theorem State.setDriver_CTAB (d : Driver) : (s.setDriver d).CTAB = s.CTAB := rfl
@[simp] theorem State.setDriver_driver (d : Driver) : (s.setDriver d).driver = d := rfl

end Updates

/-! ### Marks and values -/

@[simp] theorem Marked.of_val (v : Word) : (Marked.of v).val = v := rfl
@[simp] theorem Marked.of_written (v : Word) : (Marked.of v).written = true := rfl
@[simp] theorem Marked.unwritten_written : Marked.unwritten.written = false := rfl
@[simp] theorem Marked.unwritten_val : Marked.unwritten.val = 0 := rfl

section Marks
variable (s : State)

@[simp] theorem State.written_cmd : s.written .cmd = true := rfl
@[simp] theorem State.written_status : s.written .status = true := rfl
@[simp] theorem State.written_s (n : Fin 4) : s.written (.s n) = true := rfl
@[simp] theorem State.written_i (n : Fin 4) : s.written (.i n) = true := rfl
@[simp] theorem State.written_w (j : Fin 16) : s.written (.w j) = s.W[j].written := rfl
@[simp] theorem State.written_ch (k : Fin 16) : s.written (.ch k) = s.CH[k].written := rfl
@[simp] theorem State.written_opA : s.written .opA = s.OPA.written := rfl
@[simp] theorem State.written_opB : s.written .opB = s.OPB.written := rfl
@[simp] theorem State.written_opC : s.written .opC = s.OPC.written := rfl
@[simp] theorem State.written_opD : s.written .opD = s.OPD.written := rfl
@[simp] theorem State.written_opM : s.written .opM = s.OPM.written := rfl
@[simp] theorem State.written_res : s.written .res = s.RES.written := rfl
@[simp] theorem State.written_lk0 : s.written .lk0 = s.LK0.written := rfl
@[simp] theorem State.written_lk1 : s.written .lk1 = s.LK1.written := rfl
@[simp] theorem State.written_lk2 : s.written .lk2 = s.LK2.written := rfl

@[simp] theorem State.value_cmd : s.value .cmd = s.CMD := rfl
@[simp] theorem State.value_status : s.value .status = s.statusWord := rfl
@[simp] theorem State.value_s (n : Fin 4) : s.value (.s n) = s.S[n] := rfl
@[simp] theorem State.value_i (n : Fin 4) : s.value (.i n) = s.I[n] := rfl
@[simp] theorem State.value_w (j : Fin 16) : s.value (.w j) = s.W[j].val := rfl
@[simp] theorem State.value_ch (k : Fin 16) : s.value (.ch k) = s.CH[k].val := rfl
@[simp] theorem State.value_opA : s.value .opA = s.OPA.val := rfl
@[simp] theorem State.value_opB : s.value .opB = s.OPB.val := rfl
@[simp] theorem State.value_opC : s.value .opC = s.OPC.val := rfl
@[simp] theorem State.value_opD : s.value .opD = s.OPD.val := rfl
@[simp] theorem State.value_opM : s.value .opM = s.OPM.val := rfl
@[simp] theorem State.value_res : s.value .res = s.RES.val := rfl
@[simp] theorem State.value_lk0 : s.value .lk0 = s.LK0.val := rfl
@[simp] theorem State.value_lk1 : s.value .lk1 = s.LK1.val := rfl
@[simp] theorem State.value_lk2 : s.value .lk2 = s.LK2.val := rfl

end Marks

end Sys2Proof.Machine
end

