-- ==== Sys2Proof/Laws/Vectors.lean ====
section
/-!
SUPPORT. Reading the written-out vectors `vec4` and `vec16`, and extensionality of the two register-file shapes over
their indices, so that a claim about a file is a claim about each of its registers.
-/

namespace Sys2Proof

@[simp] theorem vec4_getElem {α : Type} (f : Fin 4 → α) (n : Fin 4) : (vec4 f)[n] = f n := by
  fin_cases n <;> rfl

@[simp] theorem vec16_getElem {α : Type} (f : Fin 16 → α) (j : Fin 16) : (vec16 f)[j] = f j := by
  fin_cases j <;> rfl

@[simp] theorem vec4_getElem_nat {α : Type} (f : Fin 4 → α) (n : Nat) (h : n < 4) : (vec4 f)[n] = f ⟨n, h⟩ :=
  vec4_getElem f ⟨n, h⟩

@[simp] theorem vec16_getElem_nat {α : Type} (f : Fin 16 → α) (j : Nat) (h : j < 16) :
    (vec16 f)[j] = f ⟨j, h⟩ := vec16_getElem f ⟨j, h⟩

/-- Two register files are equal when they agree at every index. -/
theorem vector_ext_fin {α : Type} {n : Nat} {x y : Vector α n} (h : ∀ k : Fin n, x[k] = y[k]) : x = y :=
  Vector.ext fun i hi => h ⟨i, hi⟩

/-- A register file is the one written out from its own entries. -/
theorem vec16_eta {α : Type} (x : Vector α 16) : vec16 (fun j => x[j]) = x :=
  vector_ext_fin fun _ => vec16_getElem _ _

theorem vec4_eta {α : Type} (x : Vector α 4) : vec4 (fun j => x[j]) = x :=
  vector_ext_fin fun _ => vec4_getElem _ _

/-- Reading a register file after one of its registers was set. -/
theorem set_getElem_fin {α : Type} {n : Nat} (x : Vector α n) (i k : Fin n) (v : α) :
    (x.set i v)[k] = if k = i then v else x[k] := by
  rcases eq_or_ne k i with rfl | h
  · simp
  · have h' : i.val ≠ k.val := fun e => h (Fin.ext e.symm)
    simp only [Fin.getElem_fin, if_neg h]
    exact Vector.getElem_set_ne _ _ h'

theorem mem_steps16 (k : Fin 16) : k ∈ steps16 := by revert k; decide

theorem mem_steps4 (n : Fin 4) : n ∈ steps4 := by revert n; decide

end Sys2Proof
end

