-- ==== Sys2Proof/Laws/Ops.lean ====
section
/-!
SUPPORT. What the shared operations of Machine/Ops.lean can do: the check before a command (R26), rotation (R11), bits of a
mask, IllegalCommand and the return from it.
-/

namespace Sys2Proof.Machine

open Host (Outcome)

/-! ### The check before a command -/

theorem unwritten_eq_nil {s : State} {rs : List Reg} :
    s.unwritten rs = [] ↔ ∀ r ∈ rs, s.written r = true := by
  simp [State.unwritten]

theorem mem_unwritten {s : State} {rs : List Reg} {r : Reg} :
    r ∈ s.unwritten rs ↔ r ∈ rs ∧ s.written r = false := by
  simp [State.unwritten]

/-- When every register is written, the command's results are written. -/
theorem requireWritten_of_written {rs : List Reg} {s t : State} (h : ∀ r ∈ rs, s.written r = true) :
    requireWritten rs s t = .next t := by
  simp [requireWritten, unwritten_eq_nil.mpr h]

/-- A next state is the one the command computes, and every register it reads was written. -/
theorem requireWritten_next {rs : List Reg} {s t u : State} :
    requireWritten rs s t = .next u ↔ (∀ r ∈ rs, s.written r = true) ∧ u = t := by
  constructor
  · intro h
    unfold requireWritten at h
    split at h
    next hn => exact ⟨unwritten_eq_nil.mp hn, by simpa using h.symm⟩
    next => cases h
  · rintro ⟨h, rfl⟩
    exact requireWritten_of_written h

/-- Otherwise the fault names exactly the unwritten registers among those read. -/
theorem requireWritten_of_unwritten {rs : List Reg} {s t : State} (h : ¬ ∀ r ∈ rs, s.written r = true) :
    requireWritten rs s t = .fault (.unwrittenRead (s.unwritten rs)) ∧ s.unwritten rs ≠ [] := by
  have hne : s.unwritten rs ≠ [] := fun e => h (unwritten_eq_nil.mp e)
  refine ⟨?_, hne⟩
  unfold requireWritten
  split
  next hn => exact absurd hn hne
  next hn => rw [hn]

/-- Everything the check can do: the command's results, or the fault. -/
theorem requireWritten_cases (rs : List Reg) (s t : State) :
    requireWritten rs s t = .next t ∨
      (requireWritten rs s t = .fault (.unwrittenRead (s.unwritten rs)) ∧ s.unwritten rs ≠ []) := by
  by_cases h : ∀ r ∈ rs, s.written r = true
  · exact .inl (requireWritten_of_written h)
  · exact .inr (requireWritten_of_unwritten h)

/-! ### The accessors after a write of one register -/

section Accessors
variable (s : State)

theorem value_setS (n : Fin 4) (v : Word) (r : Reg) :
    (s.setS n v).value r = if r = .s n then v else s.value r := by
  cases r with
  | s m =>
    by_cases h : m = n
    · subst h; simp [State.value]
    · rw [if_neg (by simpa using h)]
      show (s.S.set n (v))[m] = s.S[m]
      rw [set_getElem_fin, if_neg h]
  | _ => rfl

theorem written_setS (n : Fin 4) (v : Word) (r : Reg) :
    (s.setS n v).written r = s.written r := by cases r <;> rfl

theorem value_setI (n : Fin 4) (v : Word) (r : Reg) :
    (s.setI n v).value r = if r = .i n then v else s.value r := by
  cases r with
  | i m =>
    by_cases h : m = n
    · subst h; simp [State.value]
    · rw [if_neg (by simpa using h)]
      show (s.I.set n (v))[m] = s.I[m]
      rw [set_getElem_fin, if_neg h]
  | _ => rfl

theorem written_setI (n : Fin 4) (v : Word) (r : Reg) :
    (s.setI n v).written r = s.written r := by cases r <;> rfl

theorem value_setW (j : Fin 16) (v : Word) (r : Reg) :
    (s.setW j v).value r = if r = .w j then v else s.value r := by
  cases r with
  | w m =>
    by_cases h : m = j
    · subst h; simp [State.value, Marked.of]
    · rw [if_neg (by simpa using h)]
      show (s.W.set j (.of v))[m].val = s.W[m].val
      rw [set_getElem_fin, if_neg h]
  | _ => rfl

theorem written_setW (j : Fin 16) (v : Word) (r : Reg) :
    (s.setW j v).written r = if r = .w j then true else s.written r := by
  cases r with
  | w m =>
    by_cases h : m = j
    · subst h; simp [State.written, Marked.of]
    · rw [if_neg (by simpa using h)]
      show (s.W.set j (.of v))[m].written = s.W[m].written
      rw [set_getElem_fin, if_neg h]
  | _ => rfl

theorem value_setCH (k : Fin 16) (v : Word) (r : Reg) :
    (s.setCH k v).value r = if r = .ch k then v else s.value r := by
  cases r with
  | ch m =>
    by_cases h : m = k
    · subst h; simp [State.value, Marked.of]
    · rw [if_neg (by simpa using h)]
      show (s.CH.set k (.of v))[m].val = s.CH[m].val
      rw [set_getElem_fin, if_neg h]
  | _ => rfl

theorem written_setCH (k : Fin 16) (v : Word) (r : Reg) :
    (s.setCH k v).written r = if r = .ch k then true else s.written r := by
  cases r with
  | ch m =>
    by_cases h : m = k
    · subst h; simp [State.written, Marked.of]
    · rw [if_neg (by simpa using h)]
      show (s.CH.set k (.of v))[m].written = s.CH[m].written
      rw [set_getElem_fin, if_neg h]
  | _ => rfl

theorem value_setRES (v : Word) (r : Reg) :
    (s.setRES v).value r = if r = .res then v else s.value r := by cases r <;> rfl

theorem written_setRES (v : Word) (r : Reg) :
    (s.setRES v).written r = if r = .res then true else s.written r := by cases r <;> rfl

theorem value_setDriver (d : Driver) (r : Reg) : (s.setDriver d).value r = s.value r := by cases r <;> rfl

theorem written_setDriver (d : Driver) (r : Reg) : (s.setDriver d).written r = s.written r := by cases r <;> rfl

theorem written_setCMD (c : Word) (r : Reg) : (s.setCMD c).written r = s.written r := by cases r <;> rfl

theorem written_setChain (x : Vector Word 4) (r : Reg) : (s.setChain x).written r = s.written r := by cases r <;> rfl

theorem written_setInit (x : Vector Word 4) (r : Reg) : (s.setInit x).written r = s.written r := by cases r <;> rfl

end Accessors

/-! ### Rotation -/

/-- The formula of R11 is the library's rotation. -/
theorem rotl_eq_rotateLeft (x : Word) (s : Fin 32) : rotl x s = x.rotateLeft s.val := by
  unfold rotl
  split
  next h => subst h; ext i h; simp [BitVec.getElem_rotateLeft]
  next => rw [BitVec.rotateLeft_def, Nat.mod_eq_of_lt s.isLt]

/-- The formula of R11 is the library's rotation. -/
theorem rotr_eq_rotateRight (x : Word) (s : Fin 32) : rotr x s = x.rotateRight s.val := by
  unfold rotr
  split
  next h => subst h; ext i h; simp [BitVec.getElem_rotateRight, h]
  next => rw [BitVec.rotateRight_def, Nat.mod_eq_of_lt s.isLt]

/-- R11: the two rotations undo each other. -/
theorem rotr_rotl (v : Word) (s : Fin 32) : rotr (rotl v s) s = v := by
  rw [rotl_eq_rotateLeft, rotr_eq_rotateRight]
  ext i h
  have := s.isLt
  simp [BitVec.getElem_rotateLeft, BitVec.getElem_rotateRight]
  grind

theorem rotl_rotr (v : Word) (s : Fin 32) : rotl (rotr v s) s = v := by
  rw [rotl_eq_rotateLeft, rotr_eq_rotateRight]
  ext i h
  have := s.isLt
  simp [BitVec.getElem_rotateLeft, BitVec.getElem_rotateRight]
  grind

/-! ### Masks -/

/-- R10: `1 << n` has only bit `n` set. -/
@[simp] theorem bitMask_getElem (n : Fin 32) (i : Nat) (h : i < 32) :
    (bitMask n)[i] = decide (i = n.val) := by
  have hn := n.isLt
  rw [bitMask, BitVec.getElem_shiftLeft, BitVec.getElem_one]
  by_cases e : i = n.val
  · simp [e]
  · simp [e]
    omega

/-! ### IllegalCommand (R112, R115) -/

/-- R112: exactly CMD and ILL change. -/
theorem raiseIllegalCommand_eq (c : Word) (s : State) :
    raiseIllegalCommand c s = { s with CMD := c, ILL := true } := rfl

/-- R115: exactly ILL changes. -/
theorem returnFromIllegal_eq (s : State) : returnFromIllegal s = { s with ILL := false } := rfl

end Sys2Proof.Machine
end

