-- ==== Sys2Proof/Laws/Operators.lean ====
section
/-!
SUPPORT. The step operators as the library's rotation of a sum (spec/42_step_operators.md R67, R68).
-/

namespace Sys2Proof.Machine

/-- R67: the forward operator is the library's rotation of the sum. -/
theorem forwardOp_eq (r : Round) (a b c d m : Word) (s : Fin 32) :
    forwardOp r a b c d m s = (a + combine r b c d + m + roundConstant r).rotateLeft s.val := by
  rw [forwardOp, stepFn, rotl_eq_rotateLeft]

/-- R68: the inverse operator is the library's rotation, less the other terms. -/
theorem inverseOp_eq (r : Round) (v : Word) (s : Fin 32) (a b c d : Word) :
    inverseOp r v s a b c d = v.rotateRight s.val - a - combine r b c d - roundConstant r := by
  rw [inverseOp, rotr_eq_rotateRight]

@[simp] theorem combine_one : combine .one = F := rfl
@[simp] theorem combine_two : combine .two = G := rfl
@[simp] theorem combine_three : combine .three = H := rfl
@[simp] theorem roundConstant_one : roundConstant .one = 0 := rfl
@[simp] theorem roundConstant_two : roundConstant .two = 0x5A827999 := rfl
@[simp] theorem roundConstant_three : roundConstant .three = 0x6ED9EBA1 := rfl

end Sys2Proof.Machine
end

