-- ==== Sys2Proof/Laws/Modification.lean ====
section
/-!
SUPPORT. What the modification commands leave alone (spec/43_constraint_tables.md R89 to R92): the registers that none of
them writes, after one round-1 step and after the sixteen of R1_ALL.
-/

namespace Sys2Proof.Machine

/-- Two states agree on everything but S, W and CH, the files that the modification commands write. -/
structure AgreeOutsideFiles (s t : State) : Prop where
  I      : t.I = s.I
  OPA    : t.OPA = s.OPA
  OPB    : t.OPB = s.OPB
  OPC    : t.OPC = s.OPC
  OPD    : t.OPD = s.OPD
  OPM    : t.OPM = s.OPM
  RES    : t.RES = s.RES
  LK0    : t.LK0 = s.LK0
  LK1    : t.LK1 = s.LK1
  LK2    : t.LK2 = s.LK2
  CMD    : t.CMD = s.CMD
  ILL    : t.ILL = s.ILL
  CTAB   : t.CTAB = s.CTAB
  driver : t.driver = s.driver

theorem AgreeOutsideFiles.refl (s : State) : AgreeOutsideFiles s s := by
  constructor <;> rfl

theorem AgreeOutsideFiles.trans {s t u : State} (h : AgreeOutsideFiles s t) (h' : AgreeOutsideFiles t u) :
    AgreeOutsideFiles s u where
  I := h'.I.trans h.I
  OPA := h'.OPA.trans h.OPA
  OPB := h'.OPB.trans h.OPB
  OPC := h'.OPC.trans h.OPC
  OPD := h'.OPD.trans h.OPD
  OPM := h'.OPM.trans h.OPM
  RES := h'.RES.trans h.RES
  LK0 := h'.LK0.trans h.LK0
  LK1 := h'.LK1.trans h.LK1
  LK2 := h'.LK2.trans h.LK2
  CMD := h'.CMD.trans h.CMD
  ILL := h'.ILL.trans h.ILL
  CTAB := h'.CTAB.trans h.CTAB
  driver := h'.driver.trans h.driver

/-- R89: R1_STEP writes only S, W and CH. -/
theorem r1StepOn_agree (s : State) (k : Fin 16) : AgreeOutsideFiles s (r1StepOn s k) := by
  constructor <;> rfl

/-- R90: so do any of its steps in sequence. -/
theorem foldl_r1StepOn_agree (ks : List (Fin 16)) (s : State) :
    AgreeOutsideFiles s (ks.foldl r1StepOn s) := by
  induction ks generalizing s with
  | nil => exact .refl s
  | cons k ks ih => exact (r1StepOn_agree s k).trans (ih _)

/-- R91: A5_CORRECT writes only S, W and CH. -/
theorem a5CorrectOn_agree (s : State) : AgreeOutsideFiles s (a5CorrectOn s) := by
  constructor <;> rfl

/-- R92: D5_CORRECT writes only S, W and CH. -/
theorem d5CorrectOn_agree (s : State) : AgreeOutsideFiles s (d5CorrectOn s) := by
  constructor <;> rfl

/-- R89: the files after one round-1 step, in the values of the rule. -/
theorem r1StepOn_files (s : State) (k : Fin 16) :
    let t := target k
    let sh := shiftOf .one k
    let v' := applyR1 s.CTAB.r1[k]
      (forwardOp .one s.S[t] s.S[t + 1] s.S[t + 2] s.S[t + 3] (s.msg k) sh) s.S[t + 1]
    (r1StepOn s k).S = s.S.set t v' ∧
    (r1StepOn s k).W = s.W.set k (.of (inverseOp .one v' sh s.S[t] s.S[t + 1] s.S[t + 2] s.S[t + 3])) ∧
    (r1StepOn s k).CH = s.CH.set k (.of v') := ⟨rfl, rfl, rfl⟩

/-- R59: round 1 takes the words in order. -/
theorem wordOrder_one (k : Fin 16) : (wordOrder .one)[k] = k := by revert k; decide

/-- R89: the other words and chain values stay. -/
theorem r1StepOn_ne (s : State) {k j : Fin 16} (h : j ≠ k) :
    (r1StepOn s k).W[j] = s.W[j] ∧ (r1StepOn s k).CH[j] = s.CH[j] := by
  rw [(r1StepOn_files s k).2.1, (r1StepOn_files s k).2.2, set_getElem_fin, set_getElem_fin, if_neg h, if_neg h]
  exact ⟨rfl, rfl⟩

/-- R89: `CH[k]` and the register of step `k` take one value. -/
theorem r1StepOn_chain (s : State) (k : Fin 16) : (r1StepOn s k).chain k = (r1StepOn s k).S[target k] := by
  rw [State.chain, (r1StepOn_files s k).2.2, (r1StepOn_files s k).1, set_getElem_fin, set_getElem_fin]
  simp [Marked.of]

/-- R89: the word and the chain value of step `k` are written. -/
theorem r1StepOn_written (s : State) (k : Fin 16) :
    (r1StepOn s k).W[k].written = true ∧ (r1StepOn s k).CH[k].written = true := by
  rw [(r1StepOn_files s k).2.1, (r1StepOn_files s k).2.2, set_getElem_fin, set_getElem_fin]
  simp [Marked.of]

/-- R90: a step leaves the words and chain values of the steps that are not among `ks`. -/
theorem foldl_r1StepOn_notMem (ks : List (Fin 16)) (s : State) {j : Fin 16} (h : j ∉ ks) :
    (ks.foldl r1StepOn s).W[j] = s.W[j] ∧ (ks.foldl r1StepOn s).CH[j] = s.CH[j] := by
  induction ks generalizing s with
  | nil => exact ⟨rfl, rfl⟩
  | cons k ks ih =>
    simp only [List.mem_cons, not_or] at h
    obtain ⟨h1, h2⟩ := ih (r1StepOn s k) h.2
    exact ⟨h1.trans (r1StepOn_ne _ h.1).1, h2.trans (r1StepOn_ne _ h.1).2⟩

end Sys2Proof.Machine
end

