-- ==== Sys2Proof/Laws/Exec.lean ====
section
/-!
SUPPORT. What a command can do, said once for all commands: it ends in a next state or in UnwrittenRead, never in a refusal;
and it leaves the host's side and the tables alone.
-/

namespace Sys2Proof.Machine

open Host (Outcome)

/-- A command is one of three: it always completes; it is checked and then completes; or it takes IllegalCommand. Said as: the
outcome is that of a check of some registers, with some results. -/
theorem exec_eq_check (i : Instr) (s : State) : ∃ rs t, exec i s = requireWritten rs s t := by
  cases i with
  | nop => exact ⟨[], s, rfl⟩
  | loadIv => exact ⟨[], _, rfl⟩
  | ctLookupR1 k => exact ⟨[], _, rfl⟩
  | ctLookupA5 j =>
    by_cases h : j.val < 5
    · exact ⟨[], _, by simp only [exec, execCtLookupA5, dif_pos h]; rfl⟩
    · exact ⟨[], _, by simp only [exec, execCtLookupA5, dif_neg h]; rfl⟩
  | ctLookupD5 j =>
    by_cases h : j.val < 5
    · exact ⟨[], _, by simp only [exec, execCtLookupD5, dif_pos h]; rfl⟩
    · exact ⟨[], _, by simp only [exec, execCtLookupD5, dif_neg h]; rfl⟩
  | compress => exact ⟨_, _, rfl⟩
  | seed => exact ⟨initRegs, s.setChain s.I, rfl⟩
  | capture => exact ⟨chainingRegs, s.setInit s.S, rfl⟩
  | fwdF _ => exact ⟨_, _, rfl⟩
  | fwdG _ => exact ⟨_, _, rfl⟩
  | fwdH _ => exact ⟨_, _, rfl⟩
  | invF _ => exact ⟨_, _, rfl⟩
  | invG _ => exact ⟨_, _, rfl⟩
  | invH _ => exact ⟨_, _, rfl⟩
  | ctApplyR1 _ => exact ⟨_, _, rfl⟩
  | ctApplyA5 => exact ⟨_, _, rfl⟩
  | ctApplyD5 => exact ⟨_, _, rfl⟩
  | r1Step _ => exact ⟨_, _, rfl⟩
  | r1All => exact ⟨_, _, rfl⟩
  | a5Correct => exact ⟨_, _, rfl⟩
  | d5Correct => exact ⟨_, _, rfl⟩

/-- No command ends in a refusal. -/
theorem exec_ne_refused (i : Instr) (s : State) (e : Refusal) : exec i s ≠ .refused e := by
  obtain ⟨rs, t, h⟩ := exec_eq_check i s
  rw [h]
  rcases requireWritten_cases rs s t with h | ⟨h, -⟩ <;> rw [h] <;> exact fun e => nomatch e

/-- A command that completes leaves the host's side and the tables alone. -/
theorem exec_keeps_host {i : Instr} {s t : State} (h : exec i s = .next t) :
    t.driver = s.driver ∧ t.CTAB = s.CTAB := by
  cases i with
  | nop => cases h; exact ⟨rfl, rfl⟩
  | loadIv => cases h; exact ⟨rfl, rfl⟩
  | ctLookupR1 k => cases h; exact ⟨rfl, rfl⟩
  | ctLookupA5 j =>
    simp only [exec, execCtLookupA5] at h
    split at h <;> cases h <;> exact ⟨rfl, rfl⟩
  | ctLookupD5 j =>
    simp only [exec, execCtLookupD5] at h
    split at h <;> cases h <;> exact ⟨rfl, rfl⟩
  | compress => obtain ⟨-, rfl⟩ := requireWritten_next.mp h; exact ⟨rfl, rfl⟩
  | seed =>
    obtain ⟨-, rfl⟩ := (requireWritten_next (rs := initRegs) (s := s) (t := s.setChain s.I)).mp h
    exact ⟨rfl, rfl⟩
  | capture =>
    obtain ⟨-, rfl⟩ := (requireWritten_next (rs := chainingRegs) (s := s) (t := s.setInit s.S)).mp h
    exact ⟨rfl, rfl⟩
  | fwdF _ => obtain ⟨-, rfl⟩ := requireWritten_next.mp h; exact ⟨rfl, rfl⟩
  | fwdG _ => obtain ⟨-, rfl⟩ := requireWritten_next.mp h; exact ⟨rfl, rfl⟩
  | fwdH _ => obtain ⟨-, rfl⟩ := requireWritten_next.mp h; exact ⟨rfl, rfl⟩
  | invF _ => obtain ⟨-, rfl⟩ := requireWritten_next.mp h; exact ⟨rfl, rfl⟩
  | invG _ => obtain ⟨-, rfl⟩ := requireWritten_next.mp h; exact ⟨rfl, rfl⟩
  | invH _ => obtain ⟨-, rfl⟩ := requireWritten_next.mp h; exact ⟨rfl, rfl⟩
  | ctApplyR1 _ => obtain ⟨-, rfl⟩ := requireWritten_next.mp h; exact ⟨rfl, rfl⟩
  | ctApplyA5 => obtain ⟨-, rfl⟩ := requireWritten_next.mp h; exact ⟨rfl, rfl⟩
  | ctApplyD5 => obtain ⟨-, rfl⟩ := requireWritten_next.mp h; exact ⟨rfl, rfl⟩
  | r1Step _ => obtain ⟨-, rfl⟩ := requireWritten_next.mp h; exact ⟨rfl, rfl⟩
  | r1All =>
    obtain ⟨-, rfl⟩ := requireWritten_next.mp h
    exact ⟨(foldl_r1StepOn_agree _ _).driver, (foldl_r1StepOn_agree _ _).CTAB⟩
  | a5Correct => obtain ⟨-, rfl⟩ := requireWritten_next.mp h; exact ⟨rfl, rfl⟩
  | d5Correct => obtain ⟨-, rfl⟩ := requireWritten_next.mp h; exact ⟨rfl, rfl⟩

end Sys2Proof.Machine
end

