-- ==== Sys2Proof/Laws/PerInstr.lean ====
section
/-!
SUPPORT. Statements for all commands, made one constructor at a time: the encoder writes zero into the two reserved
fields of the command word (spec/30_encoding.md R47).
-/

namespace Sys2Proof

/-- A number below `2 ^ m` has no bit at `m` or above. -/
theorem ofNat_getElem_high (x m n : Nat) (hx : x < 2 ^ m) (hm : m ≤ n) (hn : n < 32) :
    (BitVec.ofNat 32 x)[n] = false := by
  rw [← BitVec.getLsbD_eq_getElem, BitVec.getLsbD_ofNat, Bool.and_eq_false_iff]
  exact .inr (Nat.testBit_lt_two_pow (lt_of_lt_of_le hx (Nat.pow_le_pow_right Nat.two_pos hm)))

/-- R42: RSV1 and RSV2 of a word written by the encoder are zero, whatever the operands. -/
theorem commandWord_reserved (op : BitVec 8) (sh : Fin 32) (rnd tbl : BitVec 2) (idx : Fin 16) :
    rsv1Field (commandWord op sh rnd tbl idx) = 0 ∧ rsv2Field (commandWord op sh rnd tbl idx) = 0 := by
  have hs := fun n (h : 5 ≤ n) (hn : n < 32) => ofNat_getElem_high sh.val 5 n sh.isLt h hn
  have hi := fun n (h : 4 ≤ n) (hn : n < 32) => ofNat_getElem_high idx.val 4 n idx.isLt h hn
  constructor
  · ext i h
    interval_cases i <;> simp [rsv1Field, commandWord, BitVec.getLsbD_of_ge, hs _ _ _]
  · ext i h
    interval_cases i <;> simp [rsv2Field, commandWord, BitVec.getLsbD_of_ge, hs _ _ _, hi _ _ _]

namespace Laws.EncodesReservedZero

/-- R47: RSV1 and RSV2 of the encoding of a command are 0. -/
def Statement (i : Instr) : Prop := rsv1Field (encode i) = 0 ∧ rsv2Field (encode i) = 0

theorem nop : Statement (.nop) := commandWord_reserved ..
theorem compress : Statement (.compress) := commandWord_reserved ..
theorem seed : Statement (.seed) := commandWord_reserved ..
theorem capture : Statement (.capture) := commandWord_reserved ..
theorem loadIv : Statement (.loadIv) := commandWord_reserved ..
theorem fwdF (s : Fin 32) : Statement (.fwdF s) := commandWord_reserved ..
theorem fwdG (s : Fin 32) : Statement (.fwdG s) := commandWord_reserved ..
theorem fwdH (s : Fin 32) : Statement (.fwdH s) := commandWord_reserved ..
theorem invF (s : Fin 32) : Statement (.invF s) := commandWord_reserved ..
theorem invG (s : Fin 32) : Statement (.invG s) := commandWord_reserved ..
theorem invH (s : Fin 32) : Statement (.invH s) := commandWord_reserved ..
theorem ctLookupR1 (k : Fin 16) : Statement (.ctLookupR1 k) := commandWord_reserved ..
theorem ctLookupA5 (k : Fin 16) : Statement (.ctLookupA5 k) := commandWord_reserved ..
theorem ctLookupD5 (k : Fin 16) : Statement (.ctLookupD5 k) := commandWord_reserved ..
theorem ctApplyR1 (k : Fin 16) : Statement (.ctApplyR1 k) := commandWord_reserved ..
theorem ctApplyA5 : Statement (.ctApplyA5) := commandWord_reserved ..
theorem ctApplyD5 : Statement (.ctApplyD5) := commandWord_reserved ..
theorem r1Step (k : Fin 16) : Statement (.r1Step k) := commandWord_reserved ..
theorem r1All : Statement (.r1All) := commandWord_reserved ..
theorem a5Correct : Statement (.a5Correct) := commandWord_reserved ..
theorem d5Correct : Statement (.d5Correct) := commandWord_reserved ..

end Laws.EncodesReservedZero

end Sys2Proof
end

