-- ==== Sys2Proof/Laws/Step.lean ====
section
/-!
SUPPORT. What an access and a step can do: the access to a register at its own offset, and the two kinds of step.
-/

namespace Sys2Proof.Machine

open Host (Outcome)

/-- R28: each register stands at its own offset. -/
theorem regAt_offset (r : Reg) : regAt r.offset = some r := by
  cases r with
  | s n => revert n; decide
  | i n => revert n; decide
  | w j => revert j; decide
  | ch k => revert k; decide
  | _ => rfl

theorem offset_aligned (r : Reg) : r.offset % 4 = 0 := by
  cases r with
  | s n => simp only [Reg.offset]; omega
  | i n => simp only [Reg.offset]; omega
  | w j => simp only [Reg.offset]; omega
  | ch k => simp only [Reg.offset]; omega
  | _ => rfl

theorem offset_le (r : Reg) : r.offset ≤ 0xFF := by
  cases r with
  | s n => simp only [Reg.offset]; omega
  | i n => simp only [Reg.offset]; omega
  | w j => simp only [Reg.offset]; omega
  | ch k => simp only [Reg.offset]; omega
  | _ => decide

/-- R29, R30: a 32-bit access at a register's offset passes the checks. -/
theorem checkAccess_offset (r : Reg) : checkAccess 32 r.offset = .ok r := by
  have hle : ¬ 0xFF < r.offset := Nat.not_lt.mpr (offset_le r)
  simp [checkAccess, hle, offset_aligned r, regAt_offset r]

/-- R12: `HostRead(offset(r))`. -/
theorem performAccess_read (r : Reg) (claim : Option Word) (s : State) :
    performAccess (.read 32 r.offset claim) s = hostRead r claim s := by
  simp [performAccess, checkAccess_offset r]

/-- R12: `HostWrite(offset(r), v)`. -/
theorem performAccess_write (r : Reg) (v : Word) (s : State) :
    performAccess (.write 32 r.offset v) s = hostWrite r v s := by
  simp [performAccess, checkAccess_offset r]

/-- R37: with an access pending, a step is that access, and it has left the queue. -/
theorem step_of_pending {s : State} {a : Access} {rest : List Access} (h : s.driver.pending = a :: rest) :
    step s = performAccess a (s.setDriver { s.driver with pending := rest }) := by
  simp [step, h]

/-- R96: with none pending, a step is the host's own. -/
theorem step_of_idle {s : State} (h : s.driver.pending = []) : step s = driverStep s := by
  simp [step, h]

/-- R32: a host write that completes touches neither the host's side nor the tables. -/
theorem hostWrite_next {r : Reg} {v : Word} {s t : State} (h : hostWrite r v s = .next t) :
    t.driver = s.driver ∧ t.CTAB = s.CTAB := by
  cases r with
  | cmd =>
    simp only [hostWrite, runCommand] at h
    split at h
    · cases h; exact ⟨rfl, rfl⟩
    · exact ⟨(exec_keeps_host h).1, (exec_keeps_host h).2⟩
  | status =>
    simp only [hostWrite, writeStatus] at h
    split at h <;> cases h <;> exact ⟨rfl, rfl⟩
  | _ => cases h <;> exact ⟨rfl, rfl⟩

/-- R31, R32: an access that completes leaves the tables, and the host's side but for what a read returned to it. -/
theorem performAccess_next {a : Access} {s t : State} (h : performAccess a s = .next t) :
    t.CTAB = s.CTAB ∧ (t.driver = s.driver ∨ ∃ c v, t.driver = s.driver.receive c v) := by
  cases a with
  | read w o c =>
    simp only [performAccess] at h
    split at h
    · cases h
    · obtain ⟨-, rfl⟩ := requireWritten_next.mp h
      exact ⟨rfl, .inr ⟨_, _, rfl⟩⟩
  | write w o v =>
    simp only [performAccess] at h
    split at h
    · cases h
    · exact ⟨(hostWrite_next h).2, .inl (hostWrite_next h).1⟩

/-- R96: what the host does between two accesses touches no register. -/
theorem driverStep_next {s t : State} (h : driverStep s = .next t) : ∃ d, t = s.setDriver d := by
  simp only [driverStep] at h
  split at h
  · cases h; exact ⟨s.driver, rfl⟩
  · cases h; exact ⟨_, rfl⟩
  · cases h; exact ⟨_, rfl⟩
  · cases h; exact ⟨_, rfl⟩
  · cases h; exact ⟨_, rfl⟩
  · cases h; exact ⟨_, rfl⟩
  · cases h; exact ⟨_, rfl⟩
  · simp only [findStep] at h
    split at h
    · cases h; exact ⟨_, rfl⟩
    · split at h
      · cases h
      · cases h; exact ⟨_, rfl⟩
    · cases h; exact ⟨_, rfl⟩
    · cases h; exact ⟨_, rfl⟩
    · cases h; exact ⟨_, rfl⟩
  · cases h; exact ⟨s.driver, rfl⟩

/-- R110: a faulted host has no access pending, and the fault is its first request. -/
theorem faulted_iff {d : Driver} : d.faulted = true ↔ d.pending = [] ∧ ∃ js, d.jobs = .ioFault :: js := by
  unfold Driver.faulted
  split
  next js hp hj => simp [hp, hj]
  next h =>
    refine ⟨fun hf => (nomatch hf), fun ⟨hp, js, hj⟩ => (h js hp hj).elim⟩

/-- R110: a host that fails now has faulted, and what it keeps. -/
@[simp] theorem fail_faulted (d : Driver) : d.fail.faulted = true := rfl
@[simp] theorem fail_pending (d : Driver) : d.fail.pending = [] := rfl
@[simp] theorem fail_jobs (d : Driver) : d.fail.jobs = .ioFault :: d.jobs := rfl
@[simp] theorem fail_result (d : Driver) : d.fail.result = d.result := rfl
@[simp] theorem fail_phase (d : Driver) : d.fail.phase = d.phase := rfl
@[simp] theorem fail_buffer (d : Driver) : d.fail.buffer = d.buffer := rfl

/-- R110: requests that are added behind, and requests to cancel, leave a faulted host faulted. -/
theorem faulted_addJobs {d : Driver} (h : d.faulted = true) (js : List Job) :
    ({ d with jobs := d.jobs ++ js } : Driver).faulted = true := by
  obtain ⟨hp, l, hj⟩ := faulted_iff.mp h
  exact faulted_iff.mpr ⟨hp, l ++ js, by simp [hj]⟩

@[simp] theorem faulted_cancelRequests (d : Driver) (l : List Nat) :
    ({ d with cancelRequests := l } : Driver).faulted = d.faulted := rfl

/-- R110: the machine of a faulted host stays as it is. -/
theorem step_of_faulted {s : State} (h : s.driver.faulted = true) : step s = .next s := by
  obtain ⟨hp, js, hj⟩ := faulted_iff.mp h
  simp [step_of_idle hp, driverStep, hj]

end Sys2Proof.Machine
end

