-- ==== Sys2Proof/Laws/Platform.lean ====
section
/-!
SUPPORT. What a step of the platform can do (spec/60_exceptions.md R117, spec/45_host_procedures.md R108): the settling of a
parallel search, and the move of one instance.
-/

namespace Sys2Proof.Machine

open Host (Outcome)

/-- R119: a reset of the block keeps its tables and its host's side. -/
@[simp] theorem resetBlock_CTAB (s : State) : (resetBlock s).CTAB = s.CTAB := rfl
@[simp] theorem resetBlock_driver (s : State) : (resetBlock s).driver = s.driver := rfl

/-- R108: a search of its own is never cancelled. -/
@[simp] theorem cancelAsked_none (d : Driver) : d.cancelAsked none = false := rfl
@[simp] theorem cancelAsked_some (d : Driver) (g : Nat) : d.cancelAsked (some g) = d.cancelRequests.contains g := rfl

/-- R108: what a success does to the platform: nothing, or it is the first of its search. -/
theorem settle_cases (g k : Nat) (init : Vector Word 4) (pair : Vector Word 16 × Vector Word 16) (p : Platform) :
    p.settle g k init pair = p ∨
      ∃ q, p.searches[g]? = some q ∧ q.result = none ∧ k ∈ q.members ∧ init = q.init ∧
        p.settle g k init pair =
          { p with
            workers := cancelOthers g k q.members p.workers
            searches := p.searches.set g { q with result := some (k, pair) } } := by
  unfold Platform.settle
  split
  next => exact .inl rfl
  next q hq =>
    split
    next h => exact .inr ⟨q, hq, h.1, h.2.1, h.2.2, rfl⟩
    next => exact .inl rfl

/-- R108, R117: a move that completes: of no instance, or a step of instance `k`, settled if it found a pair. -/
theorem move_next {k : Nat} {p q : Platform} (h : p.move k = .next q) :
    (p.workers[k]? = none ∧ q = p) ∨
      ∃ w s', p.workers[k]? = some w ∧ Sys2Proof.Machine.step w.state = .next s' ∧
        ((justFound w.state s' = none ∧ q = { p with workers := p.workers.set k { w with state := s' } }) ∨
          ∃ g pair, justFound w.state s' = some (g, pair) ∧
            q = Platform.settle g k s'.I pair { p with workers := p.workers.set k { w with state := s' } }) := by
  unfold Platform.move at h
  split at h
  next hk => exact .inl ⟨hk, by cases h; rfl⟩
  next w hk =>
    split at h
    next s' hs =>
      refine .inr ⟨w, s', hk, hs, ?_⟩
      cases h
      split
      next hf => exact .inl ⟨hf, rfl⟩
      next g pair hf => exact .inr ⟨g, pair, hf, rfl⟩
    next => cases h
    next => cases h

/-- R108: a step that found a pair has it as its host's result. -/
theorem justFound_some {s s' : State} {g : Nat} {b1 b2 : Vector Word 16} (h : justFound s s' = some (g, b1, b2)) :
    s'.driver.result = some (.found b1 b2) := by
  unfold justFound at h
  split at h
  next hr => cases h; assumption
  next => cases h

/-- R108: asking the others to cancel changes no base and no number of instances, and what it changes of a state is its
cancellation requests. -/
theorem cancelOthers_getElem (g k : Nat) (members : List Nat) (ws : List Worker) (n : Nat) :
    (cancelOthers g k members ws)[n]? =
      ws[n]?.map fun w => if n ≠ k ∧ n ∈ members then w.requestCancel g else w := by
  simp [cancelOthers, List.getElem?_mapIdx]

end Sys2Proof.Machine
end

