-- ==== Sys2Proof/Laws/Run.lean ====
section
/-!
SUPPORT. Runs of the machine: one step after another (spec/70_reset_and_hazards.md R127), the induction over a run packaged
once, and the accesses of the host that a run serves one by one.
-/

namespace Sys2Proof.Machine

open Host (Outcome)

theorem runsTo_zero (s : State) : s.runsTo 0 s := rfl

/-- A run of any machine: a step and then a run. -/
theorem run_succ_next {M : Host.Core} {k : Nat} {s u : M.State} :
    M.run (k + 1) s = .next u ↔ ∃ t, M.step s = .next t ∧ M.run k t = .next u := by
  rw [Host.Core.run]
  split
  next t ht =>
    rw [ht]
    constructor
    · exact fun h => ⟨t, rfl, h⟩
    · rintro ⟨v, hv, h⟩
      cases hv
      exact h
  next hf => simp [hf]
  next hr => simp [hr]

/-- A step and then a run. -/
theorem runsTo_cons {s t u : State} {k : Nat} (h : step s = .next t) (h' : t.runsTo k u) : s.runsTo (k + 1) u :=
  (run_succ_next (M := Sys2Proof.core)).mpr ⟨t, h, h'⟩

/-- What a run of at least one step begins with. -/
theorem runsTo_succ {s u : State} {k : Nat} (h : s.runsTo (k + 1) u) : ∃ t, step s = .next t ∧ t.runsTo k u :=
  (run_succ_next (M := Sys2Proof.core)).mp h

theorem runsTo_trans {s t u : State} {j k : Nat} (h : s.runsTo j t) (h' : t.runsTo k u) : s.runsTo (j + k) u := by
  induction j generalizing s with
  | zero => cases h; simpa using h'
  | succ j ih =>
    obtain ⟨v, hv, hr⟩ := runsTo_succ h
    rw [Nat.succ_add]
    exact runsTo_cons hv (ih hr)

/-- What every step keeps, every run keeps. -/
theorem runsTo_keeps {P : State → Prop} (hP : ∀ s t, P s → step s = .next t → P t) {s t : State} {k : Nat}
    (h : s.runsTo k t) (hs : P s) : P t := by
  induction k generalizing s with
  | zero => cases h; exact hs
  | succ k ih =>
    obtain ⟨u, hu, hr⟩ := runsTo_succ h
    exact ih hr (hP s u hs hu)

/-- R26: the step of a command that the host issues next. -/
theorem step_cmdAccess {s : State} {i : Instr} {rest : List Access} (hd : decode (encode i) = some i)
    (h : s.driver.pending = cmdAccess i :: rest) :
    step s = exec i ((s.setDriver { s.driver with pending := rest }).setCMD (encode i)) := by
  rw [step_of_pending h, cmdAccess, wrAccess, performAccess_write]
  simp only [hostWrite, runCommand, hd]

/-- R52: `W` and the queue after the host has written the words `ws j` for the indices `js`, in order. -/
theorem runsTo_wordWrites (ws : Vector Word 16) (js : List (Fin 16)) (rest : List Access) (s : State)
    (h : s.driver.pending = (js.map fun j => wrAccess (.w j) ws[j]) ++ rest) :
    s.runsTo js.length
      ((js.foldl (fun t j => t.setW j ws[j]) s).setDriver { s.driver with pending := rest }) := by
  induction js generalizing s with
  | nil =>
    have : s.driver = { s.driver with pending := rest } := by
      rw [← show s.driver.pending = rest by simpa using h]
    rw [← this]
    rfl
  | cons j js ih =>
    refine runsTo_cons (t := (s.setDriver { s.driver with
      pending := (js.map fun j => wrAccess (.w j) ws[j]) ++ rest }).setW j ws[j]) ?_ ?_
    · rw [step_of_pending (by simpa using h), wrAccess, performAccess_write]
      rfl
    · have key := ih ((s.setDriver { s.driver with
        pending := (js.map fun j => wrAccess (.w j) ws[j]) ++ rest }).setW j ws[j]) rfl
      have comm : ∀ (ks : List (Fin 16)) (t : State) (d e : Driver),
          (ks.foldl (fun t j => t.setW j ws[j]) (t.setDriver d)).setDriver e =
            (ks.foldl (fun t j => t.setW j ws[j]) t).setDriver e := by
        intro ks
        induction ks with
        | nil => intro t d e; rfl
        | cons k ks ihk => intro t d e; exact ihk (t.setW k ws[k]) d e
      have swap := comm js (s.setW j ws[j])
        { s.driver with pending := (js.map fun j => wrAccess (.w j) ws[j]) ++ rest } { s.driver with pending := rest }
      exact swap ▸ key

end Sys2Proof.Machine
end

