-- ==== Sys2Proof/Laws/Tables.lean ====
section
/-!
SUPPORT. What the masks and the application of the tables do, bit by bit (spec/43_constraint_tables.md R79 to R81).
-/

namespace Sys2Proof.Machine

/-- R79: a bit is in the mask of a condition exactly when the entry has that pair. -/
theorem condMask_getElem (c : BitCondition) (e : List BitRule) (n : Fin 32) :
    (condMask c e)[n] = true ↔ ⟨n, c⟩ ∈ e := by
  induction e with
  | nil => simp [condMask]
  | cons p ps ih =>
    obtain ⟨b, d⟩ := p
    simp only [Fin.getElem_fin] at ih ⊢
    rw [condMask, BitVec.getElem_or, Bool.or_eq_true, ih, List.mem_cons, BitRule.mk.injEq]
    by_cases h : d = c
    · simp [h, Fin.ext_iff]
    · simp [h, Ne.symm h]

/-- R80: the value of a bit after a round-1 application, by the three masks. -/
theorem applyR1_getElem (e : List BitRule) (v r : Word) (n : Fin 32) :
    (applyR1 e v r)[n] =
      ((v[n] && !((condMask .forceZero e)[n] || (condMask .forceOne e)[n] || (condMask .equalToReference e)[n]))
        || (condMask .forceOne e)[n]
        || (r[n] && (condMask .equalToReference e)[n])) := by
  simp [applyR1, zeroMask, oneMask, equalMask]

/-- R81: the value of a bit after one triple. -/
theorem applyTriple_getElem (R : Vector Word 4) (v : Word) (p : RefRule) (n : Fin 32) :
    (applyTriple R v p)[n] =
      if n = p.bit then
        (match p.cond with
         | .forceZero => false
         | .forceOne => true
         | .equalToReference => R[p.ref][n])
      else v[n] := by
  obtain ⟨b, c, f⟩ := p
  by_cases h : n = b
  · subst h
    cases c <;> simp [applyTriple]
  · have h' : ¬ n.val = b.val := fun e => h (Fin.ext e)
    cases c <;> simp [applyTriple, h, h']

end Sys2Proof.Machine
end

