-- ==== Sys2Proof/Machine/Wang.lean ====
section
/-!
DEFINITION. The reference instance CTAB_WANG (spec/43_constraint_tables.md R93, R94), "[from general knowledge, not
in source]". It is for running and testing; no definition of the machine uses it, and the spec says not to assume
that it is what the repository holds (spec/91_not_in_source.md N1).
-/

namespace Sys2Proof.Machine.Wang

/-- R93: `=0`. -/
def z (b : Fin 32) : BitRule := ⟨b, .forceZero⟩
/-- R93: `=1`. -/
def o (b : Fin 32) : BitRule := ⟨b, .forceOne⟩
/-- R93: `=r`. -/
def r (b : Fin 32) : BitRule := ⟨b, .equalToReference⟩

/-- R93: the sixteen round-1 entries. -/
def r1 : Vector (List BitRule) 16 :=
  #v[[r 6],
     [z 6, r 7, r 10],
     [o 6, o 7, z 10, r 25],
     [o 6, z 7, z 10, z 25],
     [o 7, o 10, z 25, r 13],
     [z 13, r 18, r 19, r 20, r 21, o 25],
     [r 12, z 13, r 14, z 18, z 19, o 20, z 21],
     [o 12, o 13, z 14, r 16, z 18, z 19, z 20, z 21],
     [o 12, o 13, o 14, z 16, z 18, z 19, z 20, o 21, r 22, r 25],
     [o 12, o 13, o 14, z 16, z 19, o 20, o 21, z 22, o 25, r 29],
     [o 16, z 19, z 20, z 21, z 22, z 25, o 29, r 31],
     [z 19, o 20, o 21, r 22, o 25, z 29, z 31],
     [z 22, z 25, r 26, r 28, o 29, z 31],
     [z 22, z 25, o 26, o 28, z 29, o 31],
     [r 18, o 22, o 25, z 26, z 28, z 29],
     [z 18, o 25, o 26, o 28, z 29]]

/-- R94: the a5 table. -/
def a5 : Vector RefRule 5 :=
  #v[⟨18, .equalToReference, 2⟩, ⟨25, .forceOne, 0⟩, ⟨26, .forceZero, 0⟩, ⟨28, .forceOne, 0⟩,
     ⟨31, .forceOne, 0⟩]

/-- R94: the d5 table. -/
def d5 : Vector RefRule 5 :=
  #v[⟨18, .equalToReference, 0⟩, ⟨25, .equalToReference, 1⟩, ⟨26, .equalToReference, 1⟩,
     ⟨28, .equalToReference, 1⟩, ⟨31, .equalToReference, 1⟩]

/-- R93, R94: CTAB_WANG. -/
def ctab : CTab := ⟨r1, a5, d5⟩

end Sys2Proof.Machine.Wang
end

