-- ==== Sys2Proof/Tests/Slice0.lean ====
section
/-!
SUPPORT. The model's own tests: the well-formedness checks, the decoding of a word of every command (the words of
spec/95_test_vectors.md V-E1, written out bit by bit from the fields of spec/30_encoding.md R42), one step of each command
on the vectors of 95_test_vectors.md, and for every obligation with hypotheses a concrete case that meets them. Vectors
that need tables use CTAB_WANG.
-/

namespace Sys2Proof.Tests

open Sys2Proof Sys2Proof.Machine Host

/-! ### States of the tests -/

/-- The state after reset of a block with CTAB_WANG. -/
def fresh : State := State.resetWith Wang.ctab
/-- `s` with all sixteen message words written. -/
def withWords (ws : Vector Word 16) (s : State) : State := { s with W := vec16 fun j => .of ws[j] }
/-- `fresh` with the five operand registers written. -/
def withOps (a b c d m : Word) : State :=
  { fresh with OPA := .of a, OPB := .of b, OPC := .of c, OPD := .of d, OPM := .of m }
/-- `s` with accesses that the host issues next. -/
def asked (as : List Access) (s : State) : State := s.setDriver { s.driver with pending := as }
/-- What `f` sees of a next state. -/
def after {α : Type} (o : Outcome State Fault Refusal) (f : State → α) : Option α :=
  match o with
  | .next t => some (f t)
  | .fault _ => none
  | .refused _ => none

/-- Sixteen zero words. -/
def zeros : Vector Word 16 := vec16 fun _ => 0
/-- V-T6: W[j] = j · 0x01010101. -/
def ramp : Vector Word 16 := vec16 fun j => BitVec.ofNat 32 (j.val * 0x01010101)
/-- V-C3: the padded message "abc". -/
def abcBlock : Vector Word 16 := #v[0x80636261, 0, 0, 0, 0, 0, 0, 0, 0, 0, 0, 0, 0, 0, 0x00000018, 0]

/-! ### Well-formedness: the check of R48 refuses -/

theorem test_wf_lookupA5_index5 : (Instr.ctLookupA5 5).wf = false := by decide
theorem test_wf_lookupD5_index5 : (Instr.ctLookupD5 5).wf = false := by decide
theorem test_wf_lookup_index4 : (Instr.ctLookupA5 4).wf = true ∧ (Instr.ctLookupD5 4).wf = true := by decide

/-! ### Decoding (V-E1): bits 31:24 RSV2, 23:20 IDX, 19:18 TBL, 17:16 RND, 15:13 RSV1, 12:8 SH, 7:0 OP -/

theorem test_decode_nop : decode 0b00000000000000000000000000000000 = some (.nop) := by decide
theorem test_decode_compress : decode 0b00000000000000000000000000000001 = some (.compress) := by decide
theorem test_decode_seed : decode 0b00000000000000000000000000000010 = some (.seed) := by decide
theorem test_decode_capture : decode 0b00000000000000000000000000000011 = some (.capture) := by decide
theorem test_decode_loadIv : decode 0b00000000000000000000000000000100 = some (.loadIv) := by decide
theorem test_decode_fwdF : decode 0b00000000000000010000001100010000 = some (.fwdF 3) := by decide
theorem test_decode_fwdG : decode 0b00000000000000100000010100010000 = some (.fwdG 5) := by decide
theorem test_decode_fwdH : decode 0b00000000000000110000111100010000 = some (.fwdH 15) := by decide
theorem test_decode_invF : decode 0b00000000000000010001001100010001 = some (.invF 19) := by decide
theorem test_decode_invG : decode 0b00000000000000100000100100010001 = some (.invG 9) := by decide
theorem test_decode_invH : decode 0b00000000000000110000101100010001 = some (.invH 11) := by decide
theorem test_decode_ctLookupR1 : decode 0b00000000100000000000000000100000 = some (.ctLookupR1 8) := by decide
theorem test_decode_ctLookupA5 : decode 0b00000000000001000000000000100000 = some (.ctLookupA5 0) := by decide
theorem test_decode_ctLookupD5 : decode 0b00000000010010000000000000100000 = some (.ctLookupD5 4) := by decide
theorem test_decode_ctApplyR1 : decode 0b00000000001100000000000000100001 = some (.ctApplyR1 3) := by decide
theorem test_decode_ctApplyA5 : decode 0b00000000000001000000000000100001 = some (.ctApplyA5) := by decide
theorem test_decode_ctApplyD5 : decode 0b00000000000010000000000000100001 = some (.ctApplyD5) := by decide
theorem test_decode_r1Step : decode 0b00000000111100000000000000110000 = some (.r1Step 15) := by decide
theorem test_decode_r1All : decode 0b00000000000000000000000000110001 = some (.r1All) := by decide
theorem test_decode_a5Correct : decode 0b00000000000000000000000000110010 = some (.a5Correct) := by decide
theorem test_decode_d5Correct : decode 0b00000000000000000000000000110011 = some (.d5Correct) := by decide

/-! ### Illegal words (V-E2) -/

theorem test_illegal_opcode : decode 0x00000005 = none := by decide
theorem test_illegal_fwd_rnd0 : decode 0x00000110 = none := by decide
theorem test_illegal_fwd_rnd0_sh0 : decode 0x00000010 = none := by decide
theorem test_illegal_lookup_tbl3 : decode 0x000C0020 = none := by decide
theorem test_illegal_lookupA5_idx5 : decode 0x00540020 = none := by decide
theorem test_illegal_applyA5_idx1 : decode 0x00140021 = none := by decide
theorem test_illegal_rsv2 : decode 0x01000001 = none := by decide
theorem test_illegal_rsv1 : decode 0x00002001 = none := by decide
theorem test_illegal_compress_sh : decode 0x00000101 = none := by decide
theorem test_illegal_r1Step_tbl1 : decode 0x00F40030 = none := by decide
theorem test_illegal_r1All_idx1 : decode 0x00100031 = none := by decide

/-! ### One step of each command -/

/-- V-C10. -/
theorem test_nop : exec .nop fresh = .next fresh := rfl
/-- V-C3: MD4("abc"). -/
theorem test_compress_abc : after (exec .compress (withWords abcBlock fresh)) (·.S) =
    some #v[0x7A0148A4, 0x52D821AF, 0xE80AC15F, 0x9D72A67A] := by decide +kernel
/-- V-C7. -/
theorem test_compress_unwritten : ∃ rs, exec .compress fresh = .fault (.unwrittenRead rs) := ⟨_, rfl⟩
/-- V-C8. -/
theorem test_seed : after (exec .seed (fresh.setInit #v[1, 2, 3, 4])) (·.S) = some #v[1, 2, 3, 4] := by decide
/-- R65: I takes S. -/
theorem test_capture : after (exec .capture (fresh.setChain #v[1, 2, 3, 4])) (·.I) = some #v[1, 2, 3, 4] := by decide
/-- V-C9. -/
theorem test_loadIv : after (exec .loadIv (fresh.setChain #v[0, 0, 0, 0])) (·.S) =
    some #v[0x67452301, 0xEFCDAB89, 0x98BADCFE, 0x10325476] := by decide
/-- V-O2. -/
theorem test_fwdF : after (exec (.fwdF 3) (withOps 0x67452301 0xEFCDAB89 0x98BADCFE 0x10325476 0x80636261)) (·.RES.val) =
    some 0x031B1304 := by decide
/-- V-O10. -/
theorem test_fwdF_31 : after (exec (.fwdF 31) (withOps 0x01234567 0x89ABCDEF 0xFEDCBA98 0x76543210 0xDEADBEEF)) (·.RES.val) =
    some 0x6F56DF77 := by decide
/-- V-O7. -/
theorem test_fwdG : after (exec (.fwdG 5) (withOps 0xFFFFFFFF 0xFFFFFFFF 0xFFFFFFFF 0xFFFFFFFF 0xFFFFFFFF)) (·.RES.val) =
    some 0x504F32CB := by decide
/-- V-O9. -/
theorem test_fwdG_0 : after (exec (.fwdG 0) (withOps 0x01234567 0x89ABCDEF 0xFEDCBA98 0x76543210 0xDEADBEEF)) (·.RES.val) =
    some 0x39303887 := by decide
/-- V-O4. -/
theorem test_fwdH : after (exec (.fwdH 3) (withOps 0x67452301 0xEFCDAB89 0x98BADCFE 0x10325476 0x00000000)) (·.RES.val) =
    some 0xEB218D19 := by decide
/-- V-O8. -/
theorem test_fwdH_15 : after (exec (.fwdH 15) (withOps 0x01234567 0x89ABCDEF 0xFEDCBA98 0x76543210 0xDEADBEEF)) (·.RES.val) =
    some 0x1AAF27E7 := by decide
/-- V-O11. -/
theorem test_invF : after (exec (.invF 3) (withOps 0x67452301 0xEFCDAB89 0x98BADCFE 0x10325476 0x00000000)) (·.RES.val) =
    some 0x00000001 := by decide
/-- V-O14. -/
theorem test_invF_31 : after (exec (.invF 31) (withOps 0x01234567 0x89ABCDEF 0xFEDCBA98 0x76543210 0x6F56DF77)) (·.RES.val) =
    some 0xDEADBEEF := by decide
/-- V-O12. -/
theorem test_invG : after (exec (.invG 9) (withOps 0x67452301 0xEFCDAB89 0x98BADCFE 0x10325476 0xFFFFFFFF)) (·.RES.val) =
    some 0xA57D8667 := by decide
/-- V-O14. -/
theorem test_invG_0 : after (exec (.invG 0) (withOps 0x01234567 0x89ABCDEF 0xFEDCBA98 0x76543210 0x39303887)) (·.RES.val) =
    some 0xDEADBEEF := by decide
/-- V-O13. -/
theorem test_invH : after (exec (.invH 11) (withOps 0x67452301 0xEFCDAB89 0x98BADCFE 0x10325476 0x80000000)) (·.RES.val) =
    some 0xC2ABCE5D := by decide
/-- V-O14. -/
theorem test_invH_15 : after (exec (.invH 15) (withOps 0x01234567 0x89ABCDEF 0xFEDCBA98 0x76543210 0x1AAF27E7)) (·.RES.val) =
    some 0xDEADBEEF := by decide
/-- V-T1. -/
theorem test_ctLookupR1 : after (exec (.ctLookupR1 8) fresh) (fun t => (t.LK0.val, t.LK1.val, t.LK2.val)) =
    some (0x001D0000, 0x00207000, 0x02400000) := by decide
/-- V-T2. -/
theorem test_ctLookupA5 : after (exec (.ctLookupA5 2) fresh) (fun t => (t.LK0.val, t.LK1.val, t.LK2.val)) =
    some (0x1A, 0, 0) := by decide
/-- V-T2. -/
theorem test_ctLookupD5 : after (exec (.ctLookupD5 4) fresh) (fun t => (t.LK0.val, t.LK1.val, t.LK2.val)) =
    some (0x1F, 2, 1) := by decide
/-- V-T3. -/
theorem test_ctApplyR1 : after (exec (.ctApplyR1 8) (withOps 0 0x9ABCDEF0 0 0 0x12345678)) (·.RES.val) =
    some 0x12207678 := by decide
/-- R86: OPA, OPC and OPD are not read; OPB is, though entry 3 has no equalToReference pair. -/
theorem test_ctApplyR1_operands :
    after (exec (.ctApplyR1 3) { fresh with OPM := .of 0xFFFFFFFF, OPB := .of 0 }) (·.RES.val) = some 0xFDFFFB7F ∧
    exec (.ctApplyR1 3) { fresh with OPM := .of 0xFFFFFFFF } = .fault (.unwrittenRead [.opB]) := ⟨by decide, rfl⟩
/-- V-T4a. -/
theorem test_ctApplyA5 : after (exec .ctApplyA5 (withOps 0x11111111 0x22222222 0x44444444 0x88888888 0)) (·.RES.val) =
    some 0x92040000 := by decide
/-- V-T5b. -/
theorem test_ctApplyD5 :
    after (exec .ctApplyD5 (withOps 0x11111111 0x22222222 0x44444444 0x88888888 0xFFFFFFFF)) (·.RES.val) =
    some 0x6BFBFFFF := by decide
/-- V-T9. -/
theorem test_r1Step : after (exec (.r1Step 0) (withWords zeros fresh)) (fun t => (t.S[0], t.W[0], t.CH[0])) =
    some (0xFFFFFFBF, ⟨0xFFFFFFF8, true⟩, ⟨0xFFFFFFBF, true⟩) := by decide
/-- V-T12. -/
theorem test_r1Step_unwritten : exec (.r1Step 15) fresh = .fault (.unwrittenRead [.w 15]) := rfl
/-- V-T6. -/
theorem test_r1All : after (exec .r1All (withWords ramp fresh)) (fun t => (t.S, t.W[15].val, t.CH[15].val)) =
    some (#v[0x7137F1A1, 0x56B09BC5, 0x03F7C66E, 0x9DB4354C], 0x8F0F0F8F, 0x56B09BC5) := by decide +kernel
/-- V-T7, from the values of V-T6 that A5_CORRECT reads. -/
theorem test_a5Correct :
    let s : State :=
      { fresh with
        S := #v[0x7137F1A1, 0x56B09BC5, 0x03F7C66E, 0x9DB4354C]
        W := fresh.W.set 0 (.of 0xFFFFFFF8)
        CH := (((fresh.CH.set 1 (.of 0x8080A480)).set 2 (.of 0x547448D4)).set 3 (.of 0x31BCF263)).set 4 (.of 0xA1C2649C) }
    after (exec .a5Correct s) (fun t => [t.S[0], t.W[0].val, t.W[1].val, t.W[2].val, t.W[3].val, t.W[4].val, t.chain 0]) =
      some [0x9B7C13F7, 0x10007FF8, 0x58150105, 0x92820202, 0x2E7B0306, 0x8400081B, 0x8003FFB8] := by decide +kernel
/-- V-T8, from the values of V-T6 and V-T7 that D5_CORRECT reads. -/
theorem test_d5Correct :
    let s : State :=
      { fresh with
        S := #v[0x9B7C13F7, 0x56B09BC5, 0x03F7C66E, 0x9DB4354C]
        W := fresh.W.set 4 (.of 0x8400081B)
        CH := #v[.of 0x8003FFB8, .of 0x8080A480, .of 0x547448D4, .of 0x31BCF263, .unwritten, .of 0x9F00C2FD,
          .of 0xB5D3C7E1, .of 0xE3033E26, .of 0x3620FCEB, .unwritten, .unwritten, .unwritten, .unwritten, .unwritten,
          .unwritten, .unwritten] }
    after (exec .d5Correct s) (fun t => [t.S[3], t.W[4].val, t.W[5].val, t.W[6].val, t.W[7].val, t.W[8].val, t.chain 4]) =
      some [0x176D5CF2, 0x8490281B, 0x0A88F4C5, 0x01060106, 0x9F070700, 0x037CF408, 0xA643649C] := by decide +kernel

/-! ### Host accesses and the exception (V-X1 to V-X5) -/

/-- V-X2. -/
theorem test_read_unwritten : step (asked [rdAccess .res] fresh) = .fault (.unwrittenRead [.res]) := rfl
/-- V-X3. -/
theorem test_refusals :
    performAccess (.read 32 0x08 none) fresh = .refused .reservedOffset ∧
    performAccess (.write 32 0xD4 0) fresh = .refused .readOnlyWrite ∧
    performAccess (.read 16 0x10 none) fresh = .refused .misalignedOrNarrowAccess := ⟨rfl, rfl, rfl⟩
/-- V-X4. -/
theorem test_status_clear :
    after (step (asked [wrAccess .status 0x00000000] (fresh.setILL true))) (·.ILL) = some true ∧
    after (step (asked [wrAccess .status 0xFFFFFFFF] (fresh.setILL true))) (·.ILL) = some false := by decide
/-- V-X5. -/
theorem test_illegal_again :
    after (step (asked [wrAccess .cmd 0x000C0020] (raiseIllegalCommand 0x00000005 fresh))) (fun t => (t.ILL, t.CMD)) =
      some (true, 0x000C0020) := by decide
/-- V-R5: rotation by 19. -/
theorem test_rotate : rotl 0x12345678 19 = 0xB3C091A2 ∧ rotr 0x12345678 19 = 0x8ACF0246 := by decide
/-- V-B1, V-B3: byte order. -/
theorem test_bytes :
    packWord 0x61 0x62 0x63 0x80 = 0x80636261 ∧
    serializeState #v[0x7A0148A4, 0x52D821AF, 0xE80AC15F, 0x9D72A67A] =
      [0xA4, 0x48, 0x01, 0x7A, 0xAF, 0x21, 0xD8, 0x52, 0x5F, 0xC1, 0x0A, 0xE8, 0x7A, 0xA6, 0x72, 0x9D] := by decide
/-- V-H2: the sibling's words wrap. -/
theorem test_sibling_wraps :
    let w := sibling (((zeros.set 1 0x80000000).set 2 0x90000000).set 12 0)
    (w[1], w[2], w[12]) = (0, 0, 0xFFFF0000) := by decide
/-- R51: an immediate out of range is refused. -/
theorem test_assembler :
    assemble "FWD.F" (some 31) = some (.fwdF 31) ∧ assemble "FWD.F" (some 32) = none ∧
    assemble "CT_LOOKUP.D5" (some 4) = some (.ctLookupD5 4) ∧ assemble "CT_LOOKUP.D5" (some 5) = none := by decide +kernel

/-! ### Witnesses: for every obligation with hypotheses, a case that meets all of them -/

/-- `fresh` with the host in a search, at a phase, with the random words it has still to give. -/
def searching (p : Phase) (rand : List Word) : State :=
  fresh.setDriver { fresh.driver with jobs := [.find none], phase := p, rand := rand }
/-- `fresh` with requests to serve. -/
def requested (js : List Job) : State := fresh.setDriver { fresh.driver with jobs := js }
/-- An instance that stands at the end of a successful trial of parallel search 0 (H1 = H2), with IV in its I. -/
def succeeding : State :=
  fresh.setDriver
    { fresh.driver with jobs := [.find (some 0)], phase := .compare zeros (sibling zeros) #v[0, 0, 0, 0] }
/-- Three instances, beside one another: the first two serve parallel search 0, the third a search of its own. -/
def threeInstances (es : List PlatformEvent) : Platform :=
  ⟨[⟨0x1000, succeeding⟩, ⟨0x1100, requested [.find (some 0)]⟩, ⟨0x1200, requested [.find none]⟩],
    [⟨[0, 1], IV, none⟩], es⟩
/-- A table in which every condition of R76 occurs, as plain numbers. -/
def rawTable : RawCTab :=
  ⟨List.replicate 16 [(0, 0), (31, 1), (5, 2)], [(0, 0, 0), (1, 1, 3), (2, 2, 1), (3, 0, 2), (31, 2, 0)],
   [(4, 0, 0), (1, 1, 3), (2, 2, 1), (3, 0, 2), (31, 2, 0)]⟩

theorem witness_DecodeOfEncodeIsTheCommand :
    (Instr.ctLookupA5 4).wf = true ∧ (Instr.fwdF 31).wf = true ∧ (Instr.r1Step 15).wf = true := by decide

theorem witness_EncodeOfDecodeIsTheWord :
    decode 0x00480020 = some (.ctLookupD5 4) ∧ decode 0x00031F11 = some (.invH 31) := by decide

theorem witness_LegalExactlyWhenOneRowMatches :
    decode 0x00440020 = some (.ctLookupA5 4) ∧
    ∃ r ∈ opcodeRows, r.holds 0x00440020 = true ∧ r.mnemonic = "CT_LOOKUP.A5" := by decide

theorem witness_StepRunsTheDecodedCommand :
    (asked [.write 32 0x00 0x00F00030] fresh).driver.pending = .write 32 0x00 0x00F00030 :: [] ∧
    decode 0x00F00030 = some (.r1Step 15) := by decide

theorem witness_FetchWordRunsNext : decode 0x00011F11 = some (.invF 31) := by decide

theorem witness_IllegalWordTakesIllegalCommand :
    (asked [.write 32 0x00 0x01000001] fresh).driver.pending = .write 32 0x00 0x01000001 :: [] ∧
    decode 0x01000001 = none := by decide

/-- The second clause: a step that changes CMD. -/
theorem witness_IllegalWordTakesIllegalCommand_cmd :
    ∃ t, step (asked [.write 32 0x00 0x00000002] fresh) = .next t ∧
      t.CMD ≠ (asked [.write 32 0x00 0x00000002] fresh).CMD := ⟨_, rfl, by decide⟩

theorem witness_OnlyTheHostClearsIll :
    ∃ t, step (asked [.write 32 0x04 0x00000001] (fresh.setILL true)) = .next t ∧
      (asked [.write 32 0x04 0x00000001] (fresh.setILL true)).ILL = true ∧ t.ILL = false := ⟨_, rfl, rfl, rfl⟩

theorem witness_OnlyAnIllegalWordSetsIll :
    ∃ t, step (asked [.write 32 0x00 0x00000005] fresh) = .next t ∧
      (asked [.write 32 0x00 0x00000005] fresh).ILL = false ∧ t.ILL = true := ⟨_, rfl, rfl, rfl⟩

theorem witness_StatusIsWriteOneToClear :
    (asked [.write 32 0x04 0x80000001] (fresh.setILL true)).driver.pending = .write 32 0x04 0x80000001 :: [] := rfl

theorem witness_HostReadReturnsTheValueOnly :
    (asked [.read 32 (Reg.s 3).offset none] fresh).driver.pending = .read 32 (Reg.s 3).offset none :: [] ∧
    (asked [.read 32 (Reg.s 3).offset none] fresh).written (.s 3) = true ∧
    (asked [.read 32 (Reg.w 15).offset none] fresh).driver.pending = .read 32 (Reg.w 15).offset none :: [] ∧
    (asked [.read 32 (Reg.w 15).offset none] fresh).written (.w 15) = false ∧ (0 : Fin 32) < 31 := by decide

theorem witness_HostWriteStoresAndMarks :
    (asked [.write 32 Reg.opM.offset 9] fresh).driver.pending = .write 32 Reg.opM.offset 9 :: [] ∧
    Reg.opM ∉ [Reg.cmd, .status, .res, .lk0, .lk1, .lk2] := by decide

theorem witness_RegisterMapIsOneToOne : regAt 0x00 = some .cmd ∧ regAt 0xE0 = some .lk2 ∧ regAt 0x7C = some (.w 15) := by
  decide

/-- The bounds of the ranges: one access of each clause at each of its ends. -/
theorem witness_AccessChecksInOrder :
    ((8 ≠ 32 ∨ 0xFF % 4 ≠ 0) ∧ (32 ≠ 32 ∨ 0x01 % 4 ≠ 0)) ∧
    (∀ off ∈ [0x08, 0x0C, 0x30, 0x3C, 0xE4, 0xFC], off ≤ 0xFF ∧ off % 4 = 0 ∧
      ((0x08 ≤ off ∧ off ≤ 0x0C) ∨ (0x30 ≤ off ∧ off ≤ 0x3C) ∨ 0xE4 ≤ off)) ∧
    ∀ off ∈ [0xD4, 0xE0], off ≤ 0xFF ∧ off % 4 = 0 ∧ 0xD4 ≤ off ∧ off ≤ 0xE0 := by decide

/-- One command that is ready after reset, and one that is not. -/
theorem witness_CommandCompletesExactlyWhenReady :
    (Instr.seed.wf = true ∧ Ready .seed fresh) ∧ (Instr.compress.wf = true ∧ ¬ Ready .compress fresh) := by
  refine ⟨⟨rfl, fun r h => ?_⟩, rfl, fun h => ?_⟩
  · cases h
  · exact absurd (h (.w 15) (by decide)) (by decide)

theorem witness_CommandsWriteOnlyTheirRegisters :
    Instr.loadIv.wf = true ∧ exec .loadIv fresh = .next (fresh.setChain IV) := ⟨rfl, rfl⟩

theorem witness_StepKeepsMarksAndTables :
    ∃ t, step (asked [.write 32 0x40 5] fresh) = .next t ∧ (asked [.write 32 0x40 5] fresh).written (.s 3) = true :=
  ⟨_, rfl, rfl⟩

/-- Both clauses: CAPTURE, and host writes to the first and the last word of I. -/
theorem witness_OnlyCaptureAndHostWritesChangeInit :
    (∃ t, step (asked [.write 32 0x00 0x00000003] (fresh.setChain #v[1, 2, 3, 4])) = .next t ∧
      t.I ≠ (asked [.write 32 0x00 0x00000003] (fresh.setChain #v[1, 2, 3, 4])).I) ∧
    (∃ t, step (asked [.write 32 0x20 0] fresh) = .next t ∧ t.I ≠ (asked [.write 32 0x20 0] fresh).I) ∧
    ∃ t, step (asked [.write 32 0x2C 0] fresh) = .next t ∧ t.I ≠ (asked [.write 32 0x2C 0] fresh).I :=
  ⟨⟨_, rfl, by decide⟩, ⟨_, rfl, by decide⟩, _, rfl, by decide⟩

theorem witness_fresh_inv : fresh.Inv :=
  ⟨by decide, by decide, trivial, (fun _ h => nomatch h), (fun _ h => nomatch h)⟩

theorem witness_EveryStepKeepsInv :
    (searching .generate []).Inv ∧ ∃ t, step (searching .generate []) = .next t :=
  ⟨⟨witness_fresh_inv.tables, by decide, trivial, (fun _ h => nomatch h), (fun _ h => nomatch h)⟩, _, rfl⟩

theorem witness_UnwrittenValuesAreNeverObserved :
    SameInSight fresh { fresh with RES := ⟨5, false⟩ } ∧ fresh ≠ { fresh with RES := ⟨5, false⟩ } := by
  refine ⟨rfl, fun h => ?_⟩
  have h' : fresh.RES = ⟨5, false⟩ := congrArg State.RES h
  exact absurd h' (by decide)

/-- R8: one configuration that is accepted, and two that are refused: a repeated bit, and a `ref` of 4. -/
theorem witness_ConfigurationAcceptedExactlyWhenWellFormed :
    (∃ s, configure rawTable = .next s) ∧
    configure { rawTable with r1 := List.replicate 16 [(31, 0), (31, 1)] } = .refused .illFormedCtab ∧
    configure { rawTable with a5 := [(0, 0, 0), (1, 1, 3), (2, 2, 4), (3, 0, 2), (31, 2, 0)] } =
      .refused .illFormedCtab := ⟨⟨_, rfl⟩, rfl, rfl⟩

theorem witness_CompressRunsThreeRoundsAndAddsS :
    (∀ j : Fin 16, (withWords zeros fresh).W[j].written = true) ∧ ∃ j : Fin 16, fresh.W[j].written = false := by
  decide

theorem witness_ForwardCommandsWriteTheRotatedSum :
    (∀ r ∈ [Reg.opA, .opB, .opC, .opD, .opM], (withOps 1 2 3 4 5).written r = true) ∧
    ∃ r ∈ [Reg.opA, .opB, .opC, .opD, .opM], fresh.written r = false := by decide

theorem witness_InverseCommandsSolveForTheWord :
    (∀ r ∈ [Reg.opA, .opB, .opC, .opD, .opM], (withOps 0 0 0 0 0x80000000).written r = true) ∧
    (∃ r ∈ [Reg.opA, .opB, .opC, .opD, .opM], fresh.written r = false) ∧
    forwardOp .one 0 0 0 0 1 31 = 0x80000000 := by decide

theorem witness_LookupA5D5ReturnTheTriple : 5 ≤ (5 : Fin 16).val ∧ 5 ≤ (15 : Fin 16).val := by decide

theorem witness_LookupA5D5IllegalIndex : 5 ≤ (5 : Fin 16).val ∧ 5 ≤ (15 : Fin 16).val := by decide

/-- Entry 8 has pairs of all three conditions, and bit 0 is in no pair of it. -/
theorem witness_ApplyR1ForcesTheEntryBits :
    (withOps 1 2 3 4 5).CTAB.wf ∧ (withOps 1 2 3 4 5).OPM.written = true ∧ (withOps 1 2 3 4 5).OPB.written = true ∧
    ⟨16, .forceZero⟩ ∈ fresh.CTAB.r1[8] ∧ ⟨12, .forceOne⟩ ∈ fresh.CTAB.r1[8] ∧
    ⟨22, .equalToReference⟩ ∈ fresh.CTAB.r1[8] ∧ ⟨0, .forceZero⟩ ∉ fresh.CTAB.r1[8] ∧
    ⟨0, .forceOne⟩ ∉ fresh.CTAB.r1[8] ∧ ⟨0, .equalToReference⟩ ∉ fresh.CTAB.r1[8] ∧
    (fresh.OPM.written = false ∨ fresh.OPB.written = false) := by decide

theorem witness_ApplyA5D5ForceTheTripleBits :
    (withOps 1 2 3 4 5).CTAB.wf ∧
    (∀ r ∈ [Reg.opA, .opB, .opC, .opD, .opM], (withOps 1 2 3 4 5).written r = true) ∧
    (∀ p ∈ fresh.CTAB.a5.toList, p.bit ≠ 0) ∧ (∀ p ∈ fresh.CTAB.d5.toList, p.bit ≠ 0) ∧
    ∃ r ∈ [Reg.opA, .opB, .opC, .opD, .opM], fresh.written r = false := by decide

theorem witness_ApplicationOrderFreeAndIdempotent :
    (bitsDistinct Wang.r1[1] ∧ Wang.r1[1].Perm Wang.r1[1].reverse ∧ Wang.r1[1] ≠ Wang.r1[1].reverse) ∧
    refBitsDistinct Wang.a5 ∧ Wang.a5.toList.Perm Wang.a5.reverse.toList ∧ Wang.a5 ≠ Wang.a5.reverse := by decide +kernel

/-- Both ends of k, an unwritten word, and (V-T9) a natural output that already meets its entry. -/
theorem witness_R1StepCorrectsOneRegister :
    (withWords ramp fresh).W[(0 : Fin 16)].written = true ∧ (withWords ramp fresh).W[(15 : Fin 16)].written = true ∧
    fresh.W[(0 : Fin 16)].written = false ∧
    after (exec (.r1Step 1) ((withWords zeros fresh).setS 0 0xFFFFFFBF)) (fun t => (t.S[3], t.W[1].val)) =
      some (0x00001F80, 0x00000000) := by decide

theorem witness_R1AllIsSixteenR1Steps : ∀ j : Fin 16, (withWords ramp fresh).W[j].written = true := by decide

theorem witness_R1AllMakesEveryRound1ConditionHold :
    (withWords ramp fresh).CTAB.wf ∧ ∃ t, exec .r1All (withWords ramp fresh) = .next t := ⟨by decide, _, rfl⟩

/-- `fresh` with every word and every chain value written. -/
def withChain : State := { withWords ramp fresh with CH := vec16 fun k => .of (BitVec.ofNat 32 k.val) }

theorem witness_A5CorrectBackPropagates :
    withChain.W[(0 : Fin 16)].written = true ∧
    ∀ r ∈ [Reg.ch 1, .ch 2, .ch 3, .ch 4], withChain.written r = true := by decide

theorem witness_D5CorrectBackPropagates :
    withChain.W[(4 : Fin 16)].written = true ∧
    ∀ r ∈ [Reg.ch 0, .ch 1, .ch 2, .ch 3, .ch 5, .ch 6, .ch 7, .ch 8], withChain.written r = true := by decide

/-- Entries 1 and 5 have pairs that the third guarantee speaks of, and pairs that it leaves out. -/
theorem witness_ModificationPhaseGuarantees :
    (withWords ramp fresh).CTAB.wf ∧ (∀ j : Fin 16, (withWords ramp fresh).W[j].written = true) ∧
    ⟨6, .forceZero⟩ ∈ fresh.CTAB.r1[1] ∧ ⟨18, .equalToReference⟩ ∈ fresh.CTAB.r1[5] ∧
    ⟨31, .forceOne⟩ ∈ fresh.CTAB.r1[13] := by decide

theorem witness_BlockBytesRoundTrip : (List.replicate 64 (0xA5 : Byte)).length = 64 := by decide

/-- A prefix of one byte in one ingest; three ingests on a buffer of one byte less than a block; and no ingest on an empty
buffer of a message that has filled its blocks. -/
theorem witness_MessageBufferFoldsPaddedInput :
    ∀ x ∈ ([([], false, [[0x61]]), (List.replicate 63 1, true, [[], [2], List.replicate 64 3]), ([], true, [])] :
        List (List Byte × Bool × List (List Byte))),
      let s := (requested (x.2.2.map .ingest ++ [.finalize, .capture])).setDriver
        { (requested (x.2.2.map .ingest ++ [.finalize, .capture])).driver with buffer := x.1, ingested := x.2.1 }
      s.driver.pending = [] ∧ s.driver.jobs = x.2.2.map .ingest ++ .finalize :: [.capture] ∧
        s.driver.buffer.length < 64 ∧ (s.driver.buffer ++ x.2.2.flatten ≠ [] ∨ s.driver.ingested = true) := by decide

/-- Both values of EMPTY_PREFIX_PAD. -/
theorem witness_FinalizeOfEmptyPrefix :
    ∀ p ∈ [EmptyPrefixPad.pad0, .pad64],
      let s := (requested [.finalize]).setDriver { (requested [.finalize]).driver with emptyPrefixPad := p }
      s.driver.pending = [] ∧ s.driver.jobs = .finalize :: [] ∧ s.driver.buffer = [] ∧ s.driver.ingested = false ∧
        s.driver.emptyPrefixPad = p := by decide

theorem witness_TooFewRandomWordsAbortTheSearch :
    let s := searching .modify (List.replicate 15 0)
    s.driver.pending = [] ∧ s.driver.jobs = .find none :: [] ∧ s.driver.phase = .modify ∧ s.driver.rand.length < 16 := by
  decide

theorem witness_TrialReturnsExactlyTheCollisions :
    let s := searching .generate (ramp.toList ++ [7])
    s.driver.pending = [] ∧ s.driver.jobs = .find none :: [] ∧ s.driver.phase = .generate ∧
      s.driver.rand = ramp.toList ++ [7] ∧
      ¬ (s.driver.cancelAsked none = true ∨ ∃ n, s.driver.trialBudget = some n ∧ n ≤ s.driver.trials + 1) :=
  ⟨rfl, rfl, rfl, rfl, fun h => h.elim (fun h => nomatch h) (fun ⟨_, h, _⟩ => nomatch h)⟩

/-- A trial that is the last of its budget, and one of a search that is cancelled. -/
theorem witness_TrialReturnsExactlyTheCollisions_ended :
    let s := searching .generate ramp.toList
    (∃ n, (s.setDriver { s.driver with trialBudget := some 1 }).driver.trialBudget = some n ∧ n ≤ s.driver.trials + 1) ∧
    (s.setDriver { s.driver with cancelRequests := [0] }).driver.cancelAsked (some 0) = true := ⟨⟨1, rfl, by decide⟩, rfl⟩

/-- P3: block1 of the collision program: with it the first case of the obligation arises. -/
def collidingBlock : Vector Word 16 :=
  #v[0x4D7D2666, 0xFB40ADE0, 0x597FD826, 0xA7B46E80, 0x31CEC460, 0xFC60FEBD, 0x490AC784, 0x035B3160,
    0x217AF2BD, 0x35F323DE, 0x2BB5907F, 0xE4D241EA, 0x10B8F181, 0xDCF22EDE, 0x627C0353, 0x6EB42024]

theorem witness_collision :
    compress IV collidingBlock = #v[0xB5A67B90, 0x83E87927, 0xCC7E4443, 0x8888F50C] := by decide +kernel

theorem witness_collision_sibling :
    compress IV (sibling collidingBlock) = #v[0xB5A67B90, 0x83E87927, 0xCC7E4443, 0x8888F50C] := by decide +kernel

/-- P3: the sixteen random words of its trial. -/
def collidingDraw : Vector Word 16 :=
  #v[0x3BBD266E, 0x2940ADE5, 0xEF7F9827, 0x33BC6E82, 0xC34EC861, 0x045D1EFD, 0x0D0ACB06, 0x655B3166,
    0x05B20ABD, 0x35EF33DE, 0x2BB1947F, 0xE4D255AC, 0x1C80F181, 0xDC0AAEDE, 0x627FFB53, 0x6EB41DA4]

/-- P3: the host in a search with those words, and W holding them. -/
def drawn : State :=
  { searching .generate collidingDraw.toList with W := vec16 fun j => ⟨collidingDraw[j], true⟩ }

/-- P3: the modification phase makes block1 of those words. -/
theorem test_modification_of_collidingDraw :
    after (runCommands [.seed, .r1All, .a5Correct, .d5Correct] drawn) (·.block) = some collidingBlock := by
  decide +kernel

/-- The success clause: the block of the state `m` that the modification phase ends in collides with its sibling. -/
theorem witness_TrialReturnsExactlyTheCollisions_found :
    let s := searching .generate collidingDraw.toList
    s.driver.pending = [] ∧ s.driver.jobs = .find none :: [] ∧ s.driver.phase = .generate ∧
      s.driver.rand = collidingDraw.toList ++ [] ∧
      ∃ m, runCommands [.seed, .r1All, .a5Correct, .d5Correct]
          { s with W := vec16 fun j => ⟨collidingDraw[j], true⟩ } = .next m ∧
        compress s.I m.block = compress s.I (sibling m.block) := by
  refine ⟨rfl, rfl, rfl, rfl, ?_⟩
  have h := test_modification_of_collidingDraw
  change ∃ m, runCommands [.seed, .r1All, .a5Correct, .d5Correct] drawn = .next m ∧
    compress IV m.block = compress IV (sibling m.block)
  generalize runCommands [.seed, .r1All, .a5Correct, .d5Correct] drawn = o at h
  cases o with
  | next m =>
    have hm : m.block = collidingBlock := by simpa [after] using h
    exact ⟨m, rfl, by rw [hm, witness_collision, witness_collision_sibling]⟩
  | fault f => cases h
  | refused e => cases h

/-- The three ends of a failed trial of parallel search 0: cancelled, the last trial of the budget, and one before it. -/
theorem witness_FailedTrialBoundary :
    let s := (requested [.find (some 0)]).setDriver
      { (requested [.find (some 0)]).driver with phase := .compare zeros zeros #v[1, 2, 3, 4] }
    let c := s.setDriver { s.driver with cancelRequests := [0] }
    let b := s.setDriver { s.driver with trialBudget := some 1 }
    let n := s.setDriver { s.driver with trialBudget := some 2 }
    (∀ u ∈ [s, c, b, n], u.driver.pending = [] ∧ u.driver.jobs = .find (some 0) :: [] ∧
      u.driver.phase = .compare zeros zeros #v[1, 2, 3, 4] ∧ #v[1, 2, 3, 4] ≠ u.driver.readState) ∧
    c.driver.cancelAsked (some 0) = true ∧
    (b.driver.cancelAsked (some 0) = false ∧ b.driver.trialBudget = some 1 ∧ 1 ≤ b.driver.trials + 1) ∧
    (n.driver.cancelAsked (some 0) = false ∧ n.driver.trialBudget = some 2 ∧ n.driver.trials + 1 < 2) := by decide

theorem witness_WrongReadClaimIsRecorded :
    (asked [.read 32 (Reg.s 3).offset (some 7)] fresh).driver.pending = .read 32 (Reg.s 3).offset (some 7) :: [] ∧
    (asked [.read 32 (Reg.s 3).offset (some 7)] fresh).written (.s 3) = true ∧
    (asked [.read 32 Reg.res.offset (some 7)] fresh).driver.pending = .read 32 Reg.res.offset (some 7) :: [] ∧
    (asked [.read 32 Reg.res.offset (some 7)] fresh).written .res = false := by decide

/-- Reads of three registers, after a read that an earlier program made. -/
theorem witness_ProgramObservesItsOwnReads :
    let s := fresh.setDriver { fresh.driver with readLog := [5] }
    s.driver.pending = [] ∧ s.driver.jobs = [] ∧ (∀ r ∈ [Reg.s 0, .status, .i 3], s.written r = true) ∧
    s.driver.readLog ≠ [] := by decide

/-- V-X1: a program's observation has the values its reads return, and none of a read before it. -/
theorem test_program_observation :
    after (Sys2Proof.core.run 3
      ((fresh.setDriver { fresh.driver with readLog := [5] }).withProgram [.rd .status, .rd (.s 0)]))
      (fun t => t.observation.map (·.reads)) = some (some [0x00000000, 0x67452301]) := by decide

/-- A step in which the instance that moves succeeds, one that is a worker of its search, and one that is not. -/
theorem witness_PlatformStepMovesOneInstance :
    (threeInstances [.move 0]).schedule = .move 0 :: [] ∧ (∃ q, (threeInstances [.move 0]).step = .next q) ∧
    (∃ w, (threeInstances [.move 0]).workers[0]? = some w) ∧ (∃ w, (threeInstances [.move 0]).workers[1]? = some w) ∧
    ∃ w, (threeInstances [.move 0]).workers[2]? = some w := ⟨rfl, ⟨_, rfl⟩, ⟨_, rfl⟩, ⟨_, rfl⟩, _, rfl⟩

/-- R108: the first success supplies the result and cancels the other worker, and not the search of another instance. -/
theorem test_parallel_success :
    ∃ q, (threeInstances [.move 0]).step = .next q ∧
      q.searches = [⟨[0, 1], IV, some (0, zeros, sibling zeros)⟩] ∧
      q.workers.map (fun w => w.state.driver.cancelRequests) = [[], [0], []] := ⟨_, rfl, rfl, rfl⟩

theorem witness_FirstSuccessSuppliesTheResult :
    (threeInstances [.move 0]).schedule = .move 0 :: [] ∧
    (threeInstances [.move 0]).workers[0]? = some ⟨0x1000, succeeding⟩ ∧ succeeding.driver.pending = [] ∧
    succeeding.driver.jobs = .find (some 0) :: [] ∧ succeeding.driver.result = none ∧
    succeeding.driver.phase = .compare zeros (sibling zeros) #v[0, 0, 0, 0] ∧
    #v[0, 0, 0, 0] = succeeding.driver.readState ∧
    (threeInstances [.move 0]).searches[0]? = some ⟨[0, 1], IV, none⟩ ∧ 0 ∈ [0, 1] ∧ succeeding.I = IV :=
  ⟨rfl, rfl, rfl, rfl, rfl, rfl, rfl, rfl, by decide, rfl⟩

/-- Each clause: a host that has faulted, one that reaches the request, a fault of instance 1, and the start of a
parallel search that names it afterwards. -/
theorem witness_HostFaultEndsItsAccesses :
    (requested [.ioFault, .find none]).driver.faulted = true ∧
    (requested [.ioFault]).driver.pending = [] ∧ (requested [.ioFault]).driver.jobs = .ioFault :: [] ∧
    (threeInstances [.ioFault 1]).schedule = .ioFault 1 :: [] ∧
    (∃ w, (threeInstances [.ioFault 1]).workers[1]? = some w) ∧
    ∃ p q, (threeInstances [.ioFault 1, .search [1, 2] IV]).step = .next p ∧ p.step = .next q ∧
      p.schedule.head? ≠ some (.reset 1) ∧ ∃ w, p.workers[1]? = some w ∧ w.state.driver.faulted = true :=
  ⟨rfl, rfl, rfl, rfl, ⟨_, rfl⟩, _, _, rfl, rfl, by decide, _, rfl, rfl⟩

/-- What stands after `n` events of the schedule. -/
def eventsOf : Nat → Platform → Option Platform
  | 0, p => some p
  | n + 1, p =>
    match p.step with
    | .next q => eventsOf n q
    | .fault _ => none
    | .refused _ => none

/-- R110: a fault between the writes of two words leaves the first written and the second not; a search asked for
afterwards writes no I. -/
theorem test_fault_between_accesses :
    (eventsOf 5 ⟨[⟨0, asked [.write 32 0x40 5, .write 32 0x44 6] fresh⟩], [],
        [.move 0, .ioFault 0, .search [0] #v[1, 2, 3, 4], .move 0, .move 0]⟩).map (fun p =>
      p.workers.map fun w => (w.state.written (.w 0), w.state.written (.w 1), w.state.I, w.state.driver.faulted)) =
      some [(true, false, IV, true)] := by decide

theorem witness_ParallelSearchSharesItsInit :
    (threeInstances [.search [1, 2] #v[1, 2, 3, 4]]).schedule = .search [1, 2] #v[1, 2, 3, 4] :: [] ∧
    0 ∉ [1, 2] ∧ 2 ∈ [1, 2] ∧ (∃ w, (threeInstances [.search [1, 2] #v[1, 2, 3, 4]]).workers[2]? = some w) ∧
    (requested [.writeInit #v[1, 2, 3, 4], .find (some 0)]).driver.pending = [] ∧
    (requested [.writeInit #v[1, 2, 3, 4], .find (some 0)]).driver.jobs =
      .writeInit #v[1, 2, 3, 4] :: [.find (some 0)] := ⟨rfl, by decide, by decide, ⟨_, rfl⟩, rfl, rfl⟩

theorem witness_PlatformResetIsOfOneInstance :
    (threeInstances [.reset 1]).schedule = .reset 1 :: [] ∧ ∃ w, (threeInstances [.reset 1]).workers[1]? = some w :=
  ⟨rfl, _, rfl⟩

/-- The invariant holds of the three instances, and the step in which the first succeeds is one that it is kept by. -/
theorem witness_EveryPlatformStepKeepsInv :
    (threeInstances [.move 0]).Inv ∧ ∃ q, (threeInstances [.move 0]).step = .next q := by
  have tables : fresh.CTAB.wf := witness_fresh_inv.tables
  refine ⟨⟨fun w hw => ?_, fun q hq k b1 b2 hr => ?_⟩, _, rfl⟩
  · simp only [threeInstances, List.mem_cons, List.not_mem_nil, or_false] at hw
    rcases hw with rfl | rfl | rfl
    · exact ⟨tables, by decide, rfl, (fun _ h => nomatch h), (fun _ h => nomatch h)⟩
    · exact ⟨tables, by decide, trivial, (fun _ h => nomatch h), (fun _ h => nomatch h)⟩
    · exact ⟨tables, by decide, trivial, (fun _ h => nomatch h), (fun _ h => nomatch h)⟩
  · simp only [threeInstances, List.mem_cons, List.not_mem_nil, or_false] at hq
    subst hq
    cases hr

/-- The last offset of the first window, and the first of the window beside it. -/
theorem witness_WindowsAreRoutedToTheirInstances :
    (threeInstances []).wf = true ∧ (∃ w, (threeInstances []).workers[0]? = some w) ∧
    (threeInstances []).route 0x10FF = some (0, 0xFF) ∧ (threeInstances []).route 0x1100 = some (1, 0x00) :=
  ⟨by decide, ⟨_, rfl⟩, by decide, by decide⟩

end Sys2Proof.Tests
end

section
/-!
PROOFS. The statements of spec/00_scope.md on one block with its host: the invariant at reset and under every step (R8, R24,
R98, R104, R107).
-/

namespace Sys2Proof.Machine

/-! ### The host's side stays in order -/

/-- R107: a budget is not yet reached when none is given or fewer trials than it have failed. -/
theorem budgetReached_eq_false {budget : Option Nat} {failed : Nat} :
    budgetReached budget failed = false ↔ ∀ n, budget = some n → failed < n := by
  cases budget <;> simp [budgetReached]

namespace Driver.Ok

variable {d : Driver}

/-- The five fields that the order of the host's side rests on. -/
theorem congr {e : Driver} (h : d.Ok)
    (same : (e.buffer, e.phase, e.result, e.trialBudget, e.trials) =
      (d.buffer, d.phase, d.result, d.trialBudget, d.trials)) : e.Ok := by
  simp only [Prod.mk.injEq] at same
  obtain ⟨hbuffer, hphase, hresult, hbudget, htrials⟩ := same
  constructor
  · exact hbuffer ▸ h.bufferShort
  · exact hphase ▸ h.phasePair
  · exact hresult ▸ h.resultPair
  · exact hbudget ▸ htrials ▸ h.budget

/-- R98: the buffer may be replaced by any that is short. -/
theorem withBuffer (h : d.Ok) {b : List Byte} (hb : b.length < 64) : ({ d with buffer := b } : Driver).Ok :=
  ⟨hb, h.phasePair, h.resultPair, h.budget⟩

/-- R104: the trial may enter any phase whose pair is a pair of siblings. -/
theorem withPhase (h : d.Ok) {x : Phase} (hx : x.siblings) : ({ d with phase := x } : Driver).Ok :=
  ⟨h.bufferShort, hx, h.resultPair, h.budget⟩

/-- R98: a new message begins with an empty buffer. -/
theorem startMessageStep (h : d.Ok) (js : List Job) : (startMessageStep js d).Ok :=
  (h.withBuffer (b := []) (by simp)).congr rfl

/-- R98: bytes that leave room are appended; bytes that fill the buffer empty it. -/
theorem ingestStep (h : d.Ok) (bytes : List Byte) (js : List Job) : (ingestStep bytes js d).Ok := by
  simp only [Machine.ingestStep]
  split
  next hroom =>
    have hshort : (d.buffer ++ bytes).length < 64 := by
      rw [List.length_append]
      omega
    exact (h.withBuffer hshort).congr rfl
  next => exact (h.withBuffer (b := []) (by simp)).congr rfl

/-- R99: finalize leaves the buffer empty or as it was. -/
theorem finalizeStep (h : d.Ok) (js : List Job) : (finalizeStep js d).Ok := by
  unfold Machine.finalizeStep
  split
  next => exact (h.withBuffer (b := []) (by simp)).congr rfl
  next =>
    split
    next => exact h.congr rfl
    next => split <;> exact h.congr rfl

/-- R106, R107: a search that ends returns a pair of siblings or none, and no trial of the next one has failed. -/
theorem endSearch (h : d.Ok) {r : SearchResult} (hr : r.siblings) (js : List Job) : (endSearch r js d).Ok where
  bufferShort := h.bufferShort
  phasePair := trivial
  resultPair := fun _ e => Option.some.inj e ▸ hr
  budget := fun n hn => Nat.zero_lt_of_lt (h.budget n hn)

/-- R104, R107: a trial boundary returns the sibling pair, or counts one more failed trial below the budget. -/
theorem trialBoundary (h : d.Ok) {b1 b2 : Vector Word 16} (hpair : b2 = sibling b1) (group : Option Nat)
    (h1 h2 : Vector Word 4) (js : List Job) : (trialBoundary group b1 b2 h1 h2 js d).Ok := by
  unfold Machine.trialBoundary
  split
  next => exact h.endSearch (r := .found b1 b2) hpair js
  next =>
    split
    next => exact h.endSearch (r := .cancelled) trivial js
    next =>
      split
      next => exact h.endSearch (r := .budgetSpent) trivial js
      next hb =>
        exact ⟨h.bufferShort, trivial, h.resultPair, budgetReached_eq_false.mp (Bool.eq_false_iff.mpr hb)⟩

end Driver.Ok

/-! ### Every step of one block keeps the invariant -/

/-- R101 to R106: each phase of a trial leaves the host in order. -/
theorem findStep_keeps_ok {group : Option Nat} {js : List Job} {d : Driver} {s t : State}
    (h : findStep group js d s = .next t) (hd : d.Ok) : t.driver.Ok := by
  cases hphase : d.phase with
  | generate =>
    simp only [findStep, hphase] at h
    cases h
    exact ⟨hd.bufferShort, trivial, (fun _ e => nomatch e), hd.budget⟩
  | modify =>
    simp only [findStep, hphase] at h
    split at h
    next => cases h
    next =>
      cases h
      exact (hd.withPhase (x := .derive) trivial).congr rfl
  | derive =>
    simp only [findStep, hphase] at h
    cases h
    exact (hd.withPhase (x := .rewrite d.readBlock) trivial).congr rfl
  | rewrite b1 =>
    simp only [findStep, hphase] at h
    cases h
    exact (hd.withPhase (x := .compare b1 (sibling b1) d.readState) rfl).congr rfl
  | compare b1 b2 h1 =>
    simp only [findStep, hphase] at h
    cases h
    have hpair : (Phase.compare b1 b2 h1).siblings := hphase ▸ hd.phasePair
    exact hd.trialBoundary hpair group h1 d.readState js

/-- R96: whatever request the host serves, it stays in order. -/
theorem driverStep_keeps_ok {s t : State} (h : driverStep s = .next t) (hs : s.driver.Ok) : t.driver.Ok := by
  have hd : ({ s.driver with inProgram := false } : Driver).Ok := hs.congr rfl
  simp only [driverStep] at h
  cases hjobs : s.driver.jobs with
  | nil =>
    simp only [hjobs] at h
    cases h
    exact hs
  | cons job js =>
    simp only [hjobs] at h
    cases job with
    | program _ => cases h; exact hs.congr rfl
    | startMessage => cases h; exact hd.startMessageStep js
    | ingest bytes => cases h; exact hd.ingestStep bytes js
    | finalize => cases h; exact hd.finalizeStep js
    | capture => cases h; exact hs.congr rfl
    | writeInit _ => cases h; exact hs.congr rfl
    | find _ => exact findStep_keeps_ok h (hs.congr rfl)
    | ioFault => cases h; exact hs

/-- R96: the host's own step keeps the invariant. -/
theorem driverStep_keeps_inv {s t : State} (hs : s.Inv) (h : driverStep s = .next t) : t.Inv := by
  have hok : t.driver.Ok := driverStep_keeps_ok h hs.host
  obtain ⟨d, rfl⟩ := driverStep_next h
  exact ⟨hs.tables, hok⟩

/-- R31, R32: an access keeps the invariant. -/
theorem performAccess_keeps_inv {a : Access} {s t : State} (hs : s.Inv) (h : performAccess a s = .next t) : t.Inv := by
  obtain ⟨htab, hdrv⟩ := performAccess_next h
  refine ⟨htab ▸ hs.tables, ?_⟩
  rcases hdrv with hdrv | ⟨claim, v, hdrv⟩
  · exact hdrv ▸ hs.host
  · exact hdrv ▸ hs.host.congr rfl

/-- The host's side may be replaced by one that is in order. -/
theorem State.Inv.setDriver {s : State} (hs : s.Inv) {d : Driver} (hd : d.Ok) : (s.setDriver d).Inv :=
  ⟨hs.tables, hd⟩

/-- A step is an access or the host's own step, and both keep the invariant. -/
theorem step_keeps_inv {s t : State} (hs : s.Inv) (h : step s = .next t) : t.Inv := by
  cases hp : s.driver.pending with
  | nil => exact driverStep_keeps_inv hs (step_of_idle hp ▸ h)
  | cons a rest =>
    rw [step_of_pending hp] at h
    have hrest : ({ s.driver with pending := rest } : Driver).Ok := hs.host.congr rfl
    exact performAccess_keeps_inv (hs.setDriver hrest) h

/-- Settles O24: an access leaves the tables and all of the host's side that the invariant speaks of, and each request the host
serves keeps its side in order. -/
theorem everyStepKeepsInv : Obligations.EveryStepKeepsInv :=
  fun _ _ => step_keeps_inv

/-! ### The invariant at reset -/

/-- R98, R104, R107: an idle host is in order. -/
theorem idle_ok : Driver.idle.Ok :=
  ⟨Nat.zero_lt_succ 63, trivial, (fun _ e => nomatch e), (fun _ e => nomatch e)⟩

/-- Settles O23: the configuration's tables are well-formed by their type, and the host is idle. -/
theorem invAtReset : Obligations.InvAtReset := ⟨Config.ctab.wf, idle_ok⟩

end Sys2Proof.Machine
end

section
/-!
PROOFS. The statements of spec/00_scope.md on the platform (R9, R27, R108, R117): one event leaves every worker at its BASE
and in order, every result of a parallel search a pair of siblings, and the windows routed to their workers.
-/

namespace Sys2Proof.Machine

/-! ### What one event does to the workers -/

/-- What an event of the platform leaves of one worker: its BASE, and its invariant when it held. -/
structure Worker.Follows (w w' : Worker) : Prop where
  base : w'.base = w.base
  inv  : w.state.Inv → w'.state.Inv

theorem Worker.Follows.refl (w : Worker) : w.Follows w := ⟨rfl, id⟩

theorem Worker.Follows.trans {u v w : Worker} (h : u.Follows v) (h' : v.Follows w) : u.Follows w :=
  ⟨h'.base.trans h.base, h'.inv ∘ h.inv⟩

/-- Worker by worker, the list `ws'` follows the list `ws`. -/
def WorkersFollow (ws ws' : List Worker) : Prop := List.Forall₂ Worker.Follows ws ws'

namespace WorkersFollow

theorem refl (ws : List Worker) : WorkersFollow ws ws := List.forall₂_same.mpr fun w _ => .refl w

theorem trans {us vs ws : List Worker} (h : WorkersFollow us vs) (h' : WorkersFollow vs ws) : WorkersFollow us ws := by
  induction h generalizing ws with
  | nil => exact h'
  | cons hu _ ih =>
    obtain _ | ⟨hv, hvs⟩ := h'
    exact .cons (hu.trans hv) (ih hvs)

theorem mapIdx {f : Nat → Worker → Worker} (hf : ∀ n w, Worker.Follows w (f n w)) (ws : List Worker) :
    WorkersFollow ws (ws.mapIdx f) :=
  List.forall₂_iff_get.mpr ⟨by simp, fun n _ _ => by simpa using hf n _⟩

theorem modify {f : Worker → Worker} (hf : ∀ w, Worker.Follows w (f w)) (k : Nat) (ws : List Worker) :
    WorkersFollow ws (ws.modify k f) := by
  refine List.forall₂_iff_get.mpr ⟨by simp, fun n _ _ => ?_⟩
  simp only [List.get_eq_getElem, List.getElem_modify]
  split
  next => exact hf _
  next => exact .refl _

theorem set {ws : List Worker} {k : Nat} {w w' : Worker} (hk : ws[k]? = some w) (hw : w.Follows w') :
    WorkersFollow ws (ws.set k w') := by
  refine List.forall₂_iff_get.mpr ⟨by simp, fun n hn _ => ?_⟩
  simp only [List.get_eq_getElem, List.getElem_set]
  split
  next hkn =>
    subst hkn
    obtain ⟨_, rfl⟩ := List.getElem?_eq_some_iff.mp hk
    exact hw
  next => exact .refl _

/-- The list of BASEs is the same. -/
theorem bases {ws ws' : List Worker} (h : WorkersFollow ws ws') : ws'.map Worker.base = ws.map Worker.base := by
  induction h with
  | nil => rfl
  | cons hw _ ih => simp [hw.base, ih]

/-- If every worker was in order, every worker still is. -/
theorem inv {ws ws' : List Worker} (h : WorkersFollow ws ws') (hws : ∀ w ∈ ws, w.state.Inv) :
    ∀ w ∈ ws', w.state.Inv := by
  induction h with
  | nil => exact hws
  | cons hw _ ih =>
    simp only [List.forall_mem_cons] at hws ⊢
    exact ⟨hw.inv hws.1, ih hws.2⟩

end WorkersFollow

/-- A worker whose block keeps its tables, and whose host stays in order, follows. -/
theorem Worker.follows_of_host {w : Worker} {s' : State} (htab : s'.CTAB = w.state.CTAB)
    (hhost : w.state.driver.Ok → s'.driver.Ok) : w.Follows { w with state := s' } :=
  ⟨rfl, fun h => ⟨htab ▸ h.tables, hhost h.host⟩⟩

/-- R117: a step of the worker itself. -/
theorem Worker.follows_step {w : Worker} {s' : State} (h : Sys2Proof.Machine.step w.state = .next s') :
    w.Follows { w with state := s' } := ⟨rfl, fun hw => step_keeps_inv hw h⟩

/-- R119: a reset. -/
theorem Worker.follows_reset (w : Worker) : w.Follows { w with state := resetBlock w.state } :=
  Worker.follows_of_host rfl id

/-- R110: a caller-layer fault. -/
theorem Worker.follows_fail (w : Worker) : w.Follows { w with state := w.state.setDriver w.state.driver.fail } :=
  Worker.follows_of_host rfl fun h => h.congr rfl

/-- R108: a request to cancel. -/
theorem Worker.follows_requestCancel (g : Nat) (w : Worker) : w.Follows (w.requestCancel g) :=
  Worker.follows_of_host rfl fun h => h.congr rfl

/-- R108: the requests of a parallel search. -/
theorem Worker.follows_joinSearch (g : Nat) (init : Vector Word 4) (w : Worker) : w.Follows (w.joinSearch g init) :=
  Worker.follows_of_host rfl fun h => h.congr rfl

theorem cancelOthers_follow (g k : Nat) (members : List Nat) (ws : List Worker) :
    WorkersFollow ws (cancelOthers g k members ws) :=
  WorkersFollow.mapIdx (fun n w => by
    split
    next => exact w.follows_requestCancel g
    next => exact .refl w) ws

theorem settle_follow (g k : Nat) (init : Vector Word 4) (pair : Vector Word 16 × Vector Word 16) (p : Platform) :
    WorkersFollow p.workers (p.settle g k init pair).workers := by
  rcases settle_cases g k init pair p with h | ⟨q, -, -, -, -, h⟩
  · rw [h]
    exact .refl _
  · rw [h]
    exact cancelOthers_follow g k q.members p.workers

theorem move_follow {k : Nat} {p q : Platform} (h : p.move k = .next q) : WorkersFollow p.workers q.workers := by
  obtain ⟨-, rfl⟩ | ⟨w, s', hk, hs, hq⟩ := move_next h
  · exact .refl _
  · have hset : WorkersFollow p.workers (p.workers.set k { w with state := s' }) := .set hk (Worker.follows_step hs)
    obtain ⟨-, rfl⟩ | ⟨g, pair, -, rfl⟩ := hq
    · exact hset
    · exact hset.trans (settle_follow g k s'.I pair { p with workers := p.workers.set k { w with state := s' } })

theorem search_follow (members : List Nat) (init : Vector Word 4) (p : Platform) :
    WorkersFollow p.workers (p.search members init).workers :=
  WorkersFollow.mapIdx (fun n w => by
    split
    next => exact w.follows_joinSearch p.searches.length init
    next => exact .refl w) p.workers

/-! ### What one event does to the parallel searches -/

/-- R104, R108: the result of a parallel search, if it has one, is a block and its sibling. -/
def ParallelSearch.Paired (q : ParallelSearch) : Prop := ∀ k b1 b2, q.result = some (k, b1, b2) → b2 = sibling b1

/-- R108: the settling of a pair of siblings. -/
theorem settle_paired {g k : Nat} {init : Vector Word 4} {b1 b2 : Vector Word 16} {p : Platform}
    (hp : ∀ q ∈ p.searches, q.Paired) (hpair : b2 = sibling b1) :
    ∀ q ∈ (p.settle g k init (b1, b2)).searches, q.Paired := by
  rcases settle_cases g k init (b1, b2) p with h | ⟨q, -, -, -, -, h⟩
  · rwa [h]
  · rw [h]
    intro q' hq'
    rcases List.mem_or_eq_of_mem_set hq' with hold | rfl
    · exact hp q' hold
    · intro k' c1 c2 hr
      cases hr
      exact hpair

/-- R108: a worker of a platform that moves, and finds a pair, finds a pair of siblings. -/
theorem move_paired {k : Nat} {p q : Platform} (hp : p.Inv) (h : p.move k = .next q) :
    ∀ r ∈ q.searches, r.Paired := by
  obtain ⟨-, rfl⟩ | ⟨w, s', hk, hs, hq⟩ := move_next h
  · exact hp.results
  · obtain ⟨-, rfl⟩ | ⟨g, ⟨b1, b2⟩, hf, rfl⟩ := hq
    · exact hp.results
    · have hw : s'.Inv := step_keeps_inv (hp.workers w (List.mem_of_getElem? hk)) hs
      exact settle_paired hp.results (hw.host.resultPair _ (justFound_some hf))

/-- R108: a search that begins has no result. -/
theorem search_paired {members : List Nat} {init : Vector Word 4} {p : Platform} (hp : ∀ q ∈ p.searches, q.Paired) :
    ∀ q ∈ (p.search members init).searches, q.Paired := by
  intro q hq
  rcases List.mem_append.mp hq with hold | hnew
  · exact hp q hold
  · obtain rfl := List.mem_singleton.mp hnew
    exact fun _ _ _ e => nomatch e

/-! ### Every step of the platform -/

/-- R117: an event leaves every worker at its BASE and, if it was, in order. -/
theorem platform_step_follow {p q : Platform} (h : p.step = .next q) : WorkersFollow p.workers q.workers := by
  cases hsched : p.schedule with
  | nil =>
    simp only [Platform.step, hsched] at h
    cases h
    exact .refl _
  | cons e rest =>
    simp only [Platform.step, hsched] at h
    cases e with
    | move k => exact move_follow (p := { p with schedule := rest }) h
    | reset k => cases h; exact .modify Worker.follows_reset k p.workers
    | ioFault k => cases h; exact .modify Worker.follows_fail k p.workers
    | search members init => cases h; exact search_follow members init { p with schedule := rest }

/-- R104, R108: an event leaves every result of a parallel search a pair of siblings. -/
theorem platform_step_paired {p q : Platform} (hp : p.Inv) (h : p.step = .next q) : ∀ r ∈ q.searches, r.Paired := by
  cases hsched : p.schedule with
  | nil =>
    simp only [Platform.step, hsched] at h
    cases h
    exact hp.results
  | cons e rest =>
    simp only [Platform.step, hsched] at h
    cases e with
    | move k => exact move_paired (p := { p with schedule := rest }) ⟨hp.workers, hp.results⟩ h
    | reset k => cases h; exact hp.results
    | ioFault k => cases h; exact hp.results
    | search members init => cases h; exact search_paired (p := { p with schedule := rest }) hp.results

/-- Settles O59: every worker follows, and a pair that settles a search is the result of a host in order. -/
theorem everyPlatformStepKeepsInv : Obligations.EveryPlatformStepKeepsInv :=
  fun _ _ hp h => ⟨(platform_step_follow h).inv hp.workers, platform_step_paired hp h⟩

/-! ### Windows and routing -/

/-- R9, D2: a platform is well-formed by its list of BASEs alone. -/
theorem Platform.wf_iff_bases {p : Platform} :
    p.wf = true ↔ p.workers.map Worker.base ≠ [] ∧ (∀ b ∈ p.workers.map Worker.base, b % 4 = 0) ∧
      (p.workers.map Worker.base).Pairwise fun b b' => windowsApart b b' = true := by
  simp [Platform.wf, List.pairwise_map, and_assoc]

/-- R117: an event leaves a well-formed platform well-formed, since no BASE changes. -/
theorem platform_step_keeps_wf {p q : Platform} (hp : p.wf = true) (h : p.step = .next q) : q.wf = true := by
  rw [Platform.wf_iff_bases, (platform_step_follow h).bases]
  exact Platform.wf_iff_bases.mp hp

theorem inWindow_iff {base addr : Nat} : inWindow base addr = true ↔ base ≤ addr ∧ addr ≤ base + 0xFF := by
  simp [inWindow]

theorem windowsApart_iff {b1 b2 : Nat} : windowsApart b1 b2 = true ↔ b1 + 0xFF < b2 ∨ b2 + 0xFF < b1 := by
  simp [windowsApart]

/-- R27: the address of an offset of the window is in the window. -/
theorem inWindow_busAddress {base off : Nat} (h : off ≤ 0xFF) : inWindow base (busAddress base off) = true :=
  inWindow_iff.mpr ⟨Nat.le_add_right base off, Nat.add_le_add_left h base⟩

/-- An address in one of two windows that are apart is not in the other. -/
theorem not_inWindow_of_apart {b1 b2 off : Nat} (hapart : windowsApart b1 b2 = true) (h : off ≤ 0xFF) :
    ¬ inWindow b1 (busAddress b2 off) = true := by
  rw [windowsApart_iff] at hapart
  rw [inWindow_iff, busAddress]
  omega

/-- R27: among windows that are apart, the search for an address finds the worker whose window it is in. -/
theorem routeFrom_busAddress {ws : List Worker} (hws : ws.Pairwise fun w w' => windowsApart w.base w'.base = true)
    {n : Nat} {w : Worker} (hn : ws[n]? = some w) {off : Nat} (hoff : off ≤ 0xFF) (m : Nat) :
    routeFrom m (busAddress w.base off) ws = some (m + n, off) := by
  induction ws generalizing n m with
  | nil => simp at hn
  | cons v vs ih =>
    obtain ⟨hv, hvs⟩ := List.pairwise_cons.mp hws
    cases n with
    | zero =>
      obtain rfl : v = w := by simpa using hn
      rw [routeFrom, if_pos (inWindow_busAddress hoff)]
      simp [busAddress]
    | succ n =>
      have hn' : vs[n]? = some w := by simpa using hn
      have hnot := not_inWindow_of_apart (hv w (List.mem_of_getElem? hn')) hoff
      rw [routeFrom, if_neg hnot, ih hvs hn', Nat.add_right_comm, Nat.add_assoc]

/-- Settles O60: no event changes a BASE, and an address of one window is in no other. -/
theorem windowsAreRoutedToTheirInstances : Obligations.WindowsAreRoutedToTheirInstances := by
  intro p hp
  refine ⟨fun q h => platform_step_keeps_wf hp h, fun n w off hn hoff => ?_⟩
  obtain ⟨-, -, hapart⟩ := Platform.wf_iff_bases.mp hp
  simpa [Platform.route] using routeFrom_busAddress (List.pairwise_map.mp hapart) hn hoff 0

end Sys2Proof.Machine
end

section
/-!
PROOFS. The statement of spec/00_scope.md R8 on configurations (D35): which raw tables are accepted.
-/

namespace Sys2Proof.Machine

/-! ### Checking the members of a list -/

section CheckAll
variable {α β : Type} {f : α → Option β}

theorem checkAll_cons {x : α} {xs : List α} {zs : List β} :
    checkAll f (x :: xs) = some zs ↔ ∃ y ys, f x = some y ∧ checkAll f xs = some ys ∧ y :: ys = zs := by
  simp [checkAll, Option.bind_eq_some_iff]

/-- A checked list agrees with the given one in what the check of a member keeps. -/
theorem checkAll_map {γ : Type} {g : β → γ} {h : α → γ} (hf : ∀ x y, f x = some y → g y = h x) {xs : List α}
    {ys : List β} (hc : checkAll f xs = some ys) : ys.map g = xs.map h := by
  induction xs generalizing ys with
  | nil => cases hc; rfl
  | cons x xs ih =>
    obtain ⟨y, ys, hy, hys, rfl⟩ := checkAll_cons.mp hc
    simp [hf x y hy, ih hys]

theorem checkAll_length {xs : List α} {ys : List β} (hc : checkAll f xs = some ys) : ys.length = xs.length := by
  have h := checkAll_map (g := fun _ => ()) (h := fun _ => ()) (fun _ _ _ => rfl) hc
  simpa using congrArg List.length h

/-- A list passes with members that have a property exactly when each member does. -/
theorem checkAll_forall {P : β → Prop} {xs : List α} :
    (∃ ys, checkAll f xs = some ys ∧ ∀ y ∈ ys, P y) ↔ ∀ x ∈ xs, ∃ y, f x = some y ∧ P y := by
  induction xs with
  | nil => simp [checkAll]
  | cons x xs ih =>
    rw [List.forall_mem_cons, ← ih]
    constructor
    · rintro ⟨zs, hzs, hP⟩
      obtain ⟨y, ys, hy, hys, rfl⟩ := checkAll_cons.mp hzs
      obtain ⟨hPy, hPys⟩ := List.forall_mem_cons.mp hP
      exact ⟨⟨y, hy, hPy⟩, ys, hys, hPys⟩
    · rintro ⟨⟨y, hy, hPy⟩, ys, hys, hPys⟩
      exact ⟨y :: ys, checkAll_cons.mpr ⟨y, ys, hy, hys, rfl⟩, List.forall_mem_cons.mpr ⟨hPy, hPys⟩⟩

/-- A list passes exactly when each member does. -/
theorem checkAll_accepts {xs : List α} : (∃ ys, checkAll f xs = some ys) ↔ ∀ x ∈ xs, ∃ y, f x = some y := by
  simpa using checkAll_forall (f := f) (P := fun _ => True) (xs := xs)

theorem exactly_eq_some {n : Nat} {xs : List α} {v : Vector α n} : exactly n xs = some v ↔ xs = v.toList := by
  unfold exactly
  split
  next => simp [← Vector.toList_inj]
  next hlen =>
    have hne : xs ≠ v.toList := by
      rintro rfl
      exact hlen v.length_toList
    simp [hne]

/-- A list that passes fills a vector exactly when it has the right length. -/
theorem checkAll_fills {n : Nat} {P : List β → Prop} {xs : List α} :
    (∃ v : Vector β n, checkAll f xs = some v.toList ∧ P v.toList) ↔
      xs.length = n ∧ ∃ ys, checkAll f xs = some ys ∧ P ys := by
  constructor
  · rintro ⟨v, hv, hP⟩
    exact ⟨by simpa using (checkAll_length hv).symm, v.toList, hv, hP⟩
  · rintro ⟨rfl, ys, hys, hP⟩
    have hlen : ys.toArray.size = xs.length := by simpa using checkAll_length hys
    exact ⟨⟨ys.toArray, hlen⟩, by simpa using hys, by simpa using hP⟩

end CheckAll

/-! ### Pairs and triples -/

/-- R76: the codes of the three conditions. -/
theorem condOfCode_accepts {n : Nat} : (∃ c, condOfCode n = some c) ↔ n < 3 := by
  match n with
  | 0 | 1 | 2 => simp [condOfCode]
  | n + 3 => simp [condOfCode]

theorem checkPair_eq_some {p : Nat × Nat} {r : BitRule} :
    checkPair p = some r ↔ p.1 = r.bit.val ∧ condOfCode p.2 = some r.cond := by
  obtain ⟨b, c⟩ := r
  by_cases h : p.1 < 32
  · simp [checkPair, h, Option.bind_eq_some_iff, Fin.ext_iff, and_comm]
  · have hb : p.1 ≠ b.val := by omega
    simp [checkPair, h, hb]

theorem checkTriple_eq_some {p : Nat × Nat × Nat} {r : RefRule} :
    checkTriple p = some r ↔ p.1 = r.bit.val ∧ condOfCode p.2.1 = some r.cond ∧ p.2.2 = r.ref.val := by
  obtain ⟨b, c, f⟩ := r
  by_cases h : p.1 < 32
  · by_cases h' : p.2.2 < 4
    · simp [checkTriple, h, h', Option.bind_eq_some_iff, Fin.ext_iff, and_left_comm]
    · have hf : p.2.2 ≠ f.val := by omega
      simp [checkTriple, h, h', hf]
  · have hb : p.1 ≠ b.val := by omega
    simp [checkTriple, h, hb]

/-- R8: a pair is accepted exactly when both its numbers are in range. -/
theorem checkPair_accepts {p : Nat × Nat} : (∃ r, checkPair p = some r) ↔ p.1 < 32 ∧ p.2 < 3 := by
  simp only [checkPair_eq_some, ← condOfCode_accepts]
  constructor
  · rintro ⟨r, hb, hc⟩
    exact ⟨hb.symm ▸ r.bit.isLt, _, hc⟩
  · rintro ⟨hb, c, hc⟩
    exact ⟨⟨⟨p.1, hb⟩, c⟩, rfl, hc⟩

/-- R8: a triple is accepted exactly when its three numbers are in range. -/
theorem checkTriple_accepts {p : Nat × Nat × Nat} :
    (∃ r, checkTriple p = some r) ↔ p.1 < 32 ∧ p.2.1 < 3 ∧ p.2.2 < 4 := by
  simp only [checkTriple_eq_some, ← condOfCode_accepts]
  constructor
  · rintro ⟨r, hb, hc, hf⟩
    exact ⟨hb.symm ▸ r.bit.isLt, ⟨_, hc⟩, hf.symm ▸ r.ref.isLt⟩
  · rintro ⟨hb, ⟨c, hc⟩, hf⟩
    exact ⟨⟨⟨p.1, hb⟩, c, ⟨p.2.2, hf⟩⟩, rfl, hc, rfl⟩

/-! ### Entries and tables -/

/-- R8: bits in range repeat exactly when their numbers do. -/
theorem bits_nodup_iff {α β : Type} {f : α → Option β} {bit : β → Fin 32} {num : α → Nat}
    (hf : ∀ x y, f x = some y → (bit y).val = num x) {xs : List α} {ys : List β} (h : checkAll f xs = some ys) :
    (ys.map bit).Nodup ↔ (xs.map num).Nodup := by
  rw [← checkAll_map hf h, ← List.nodup_map_iff Fin.val_injective, List.map_map]
  rfl

/-- R8: the members of a list pass, with no bit repeated, exactly when each passes and no number of a bit repeats. -/
theorem checkAll_distinct {α β : Type} {f : α → Option β} {bit : β → Fin 32} {num : α → Nat}
    (hf : ∀ x y, f x = some y → (bit y).val = num x) {xs : List α} :
    (∃ ys, checkAll f xs = some ys ∧ (ys.map bit).Nodup) ↔
      (∀ x ∈ xs, ∃ y, f x = some y) ∧ (xs.map num).Nodup := by
  rw [← checkAll_accepts]
  constructor
  · rintro ⟨ys, hys, hd⟩
    exact ⟨⟨ys, hys⟩, (bits_nodup_iff hf hys).mp hd⟩
  · rintro ⟨⟨ys, hys⟩, hd⟩
    exact ⟨ys, hys, (bits_nodup_iff hf hys).mpr hd⟩

/-- R8: a round-1 entry is accepted exactly when its numbers are in range and no bit repeats. -/
theorem entry_accepts {e : List (Nat × Nat)} :
    (∃ e', checkAll checkPair e = some e' ∧ bitsDistinct e') ↔
      (∀ p ∈ e, p.1 < 32 ∧ p.2 < 3) ∧ (e.map Prod.fst).Nodup := by
  simp only [← checkPair_accepts]
  exact checkAll_distinct fun _ _ h => (checkPair_eq_some.mp h).1.symm

/-- R8: the round-1 table is accepted exactly when it has 16 entries and each is accepted. -/
theorem roundOne_accepts {l : List (List (Nat × Nat))} :
    (∃ v : Vector (List BitRule) 16, checkAll (checkAll checkPair) l = some v.toList ∧ ∀ e ∈ v.toList, bitsDistinct e) ↔
      l.length = 16 ∧ ∀ e ∈ l, (∀ p ∈ e, p.1 < 32 ∧ p.2 < 3) ∧ (e.map Prod.fst).Nodup := by
  rw [checkAll_fills (P := fun es => ∀ e ∈ es, bitsDistinct e), checkAll_forall]
  simp only [entry_accepts]

/-- R8: a round-2 table is accepted exactly when it has five triples, in range, and no bit repeats. -/
theorem roundTwo_accepts {l : List (Nat × Nat × Nat)} :
    (∃ v : Vector RefRule 5, checkAll checkTriple l = some v.toList ∧ refBitsDistinct v) ↔
      l.length = 5 ∧ (∀ p ∈ l, p.1 < 32 ∧ p.2.1 < 3 ∧ p.2.2 < 4) ∧ (l.map Prod.fst).Nodup := by
  simp only [← checkTriple_accepts]
  rw [← checkAll_distinct (bit := RefRule.bit) fun _ _ h => (checkTriple_eq_some.mp h).1.symm]
  exact checkAll_fills (P := fun rs => (rs.map RefRule.bit).Nodup)

/-! ### Configurations -/

/-- R7, R8: the tables of a raw configuration whose numbers are in range. -/
theorem ranged_eq_some {t : RawCTab} {c : CTab} :
    t.ranged = some c ↔ checkAll (checkAll checkPair) t.r1 = some c.r1.toList ∧
      checkAll checkTriple t.a5 = some c.a5.toList ∧ checkAll checkTriple t.d5 = some c.d5.toList := by
  obtain ⟨r1, a5, d5⟩ := c
  simp [RawCTab.ranged, Option.bind_eq_some_iff, exactly_eq_some]

/-- R8, D35: a configuration is accepted or refused, by its tables. -/
theorem configure_cases (t : RawCTab) :
    (∃ c, t.ranged = some c ∧ c.wf ∧ configure t = .next (State.resetWith c)) ∨
      (¬ (∃ c, t.ranged = some c ∧ c.wf) ∧ configure t = .refused .illFormedCtab) := by
  unfold configure
  split
  next hnone => exact .inr ⟨by simp [hnone], rfl⟩
  next c hsome =>
    split
    next hwf => exact .inl ⟨c, hsome, hwf, rfl⟩
    next hwf => exact .inr ⟨by simpa [hsome] using hwf, rfl⟩

/-- R8: a configuration is accepted exactly when its numbers are in range and its tables well-formed. -/
theorem configure_accepts {t : RawCTab} : (∃ s, configure t = .next s) ↔ ∃ c, t.ranged = some c ∧ c.wf := by
  rcases configure_cases t with ⟨c, hc, hwf, h⟩ | ⟨hno, h⟩
  · exact ⟨fun _ => ⟨c, hc, hwf⟩, fun _ => ⟨_, h⟩⟩
  · simp [h, hno]

/-- R8: the three tables of a configuration are accepted one by one. -/
theorem configure_accepts_tables {t : RawCTab} :
    (∃ s, configure t = .next s) ↔
      (∃ v : Vector (List BitRule) 16,
        checkAll (checkAll checkPair) t.r1 = some v.toList ∧ ∀ e ∈ v.toList, bitsDistinct e) ∧
      (∃ v : Vector RefRule 5, checkAll checkTriple t.a5 = some v.toList ∧ refBitsDistinct v) ∧
      ∃ v : Vector RefRule 5, checkAll checkTriple t.d5 = some v.toList ∧ refBitsDistinct v := by
  rw [configure_accepts]
  constructor
  · rintro ⟨c, hc, hwf1, hwfA, hwfD⟩
    obtain ⟨h1, hA, hD⟩ := ranged_eq_some.mp hc
    exact ⟨⟨c.r1, h1, hwf1⟩, ⟨c.a5, hA, hwfA⟩, ⟨c.d5, hD, hwfD⟩⟩
  · rintro ⟨⟨r1, h1, hwf1⟩, ⟨a5, hA, hwfA⟩, ⟨d5, hD, hwfD⟩⟩
    exact ⟨⟨r1, a5, d5⟩, ranged_eq_some.mpr ⟨h1, hA, hD⟩, hwf1, hwfA, hwfD⟩

/-- Settles O26: each of the three tables is accepted exactly when its part of the condition holds. -/
theorem configurationAcceptedExactlyWhenWellFormed : Obligations.ConfigurationAcceptedExactlyWhenWellFormed := by
  intro t
  constructor
  · rw [configure_accepts_tables, roundOne_accepts, roundTwo_accepts, roundTwo_accepts]
    simp only [List.forall_mem_append]
    constructor
    · rintro ⟨⟨hlen1, h1⟩, ⟨hlenA, hrangeA, hA⟩, hlenD, hrangeD, hD⟩
      exact ⟨hlen1, hlenA, hlenD, h1, ⟨hrangeA, hrangeD⟩, hA, hD⟩
    · rintro ⟨hlen1, hlenA, hlenD, h1, ⟨hrangeA, hrangeD⟩, hA, hD⟩
      exact ⟨⟨hlen1, h1⟩, ⟨hlenA, hrangeA, hA⟩, hlenD, hrangeD, hD⟩
  · rcases configure_cases t with ⟨c, -, -, h⟩ | ⟨-, h⟩
    · exact .inl ⟨_, h⟩
    · exact .inr h

end Sys2Proof.Machine
end

section
/-!
PROOFS. The statement of spec/10_state.md R23 on values under a clear mark (spec/70_reset_and_hazards.md R120): every step
commutes with `State.scrub`, which puts those values out of sight, so no step depends on one.
-/

namespace Sys2Proof.Machine

open Host (Outcome)

/-! ### Outcomes out of sight -/

/-- R23: an outcome with the values under a clear mark of its next state put out of sight. -/
def scrubOutcome : Outcome State Fault Refusal → Outcome State Fault Refusal
  | .next t => .next t.scrub
  | .fault f => .fault f
  | .refused e => .refused e

/-- Two outcomes agree exactly when they are one outcome once the values under a clear mark are out of sight. -/
theorem outcomesSame_iff {o o' : Outcome State Fault Refusal} :
    OutcomesSame o o' ↔ scrubOutcome o = scrubOutcome o' := by
  cases o <;> cases o' <;> simp [OutcomesSame, scrubOutcome, SameInSight]

/-! ### What scrubbing keeps of a state -/

@[simp] theorem Marked.scrub_written (m : Marked) : m.scrub.written = m.written := by
  cases h : m.written <;> simp [Marked.scrub, h]

theorem Marked.scrub_of_written {m : Marked} (h : m.written = true) : m.scrub = m := if_pos h

@[simp] theorem Marked.scrub_of (v : Word) : (Marked.of v).scrub = .of v := rfl

section Scrub
variable {s : State}

@[simp] theorem State.scrub_S : s.scrub.S = s.S := rfl
@[simp] theorem State.scrub_I : s.scrub.I = s.I := rfl
@[simp] theorem State.scrub_CTAB : s.scrub.CTAB = s.CTAB := rfl
@[simp] theorem State.scrub_driver : s.scrub.driver = s.driver := rfl

/-- R23: scrubbing clears no mark and sets none. -/
theorem written_scrub (s : State) (r : Reg) : s.scrub.written r = s.written r := by
  cases r <;> simp [State.scrub, -Fin.getElem_fin]

/-- R23: a written register keeps its value. -/
theorem value_scrub {r : Reg} (h : s.written r = true) : s.scrub.value r = s.value r := by
  cases r with
  | w j => simpa [State.scrub, -Fin.getElem_fin] using congrArg Marked.val (Marked.scrub_of_written h)
  | ch k => simpa [State.scrub, -Fin.getElem_fin] using congrArg Marked.val (Marked.scrub_of_written h)
  | cmd | status | s _ | i _ => rfl
  | _ => exact congrArg Marked.val (Marked.scrub_of_written h)

theorem msg_scrub {j : Fin 16} (h : s.written (.w j) = true) : s.scrub.msg j = s.msg j := value_scrub h

theorem chain_scrub {k : Fin 16} (h : s.written (.ch k) = true) : s.scrub.chain k = s.chain k := value_scrub h

theorem block_scrub (h : ∀ j, s.written (.w j) = true) : s.scrub.block = s.block :=
  congrArg vec16 (funext fun j => msg_scrub (h j))

theorem unwritten_scrub (s : State) (rs : List Reg) : s.scrub.unwritten rs = s.unwritten rs := by
  simp only [State.unwritten, written_scrub]

/-! ### Scrubbing after a named update -/

/-- A register file scrubbed after a write of one register is the scrubbed file with that write. -/
theorem vec16_scrub_set (x : Vector Marked 16) (j : Fin 16) (v : Word) :
    vec16 (fun k => (x.set j (.of v))[k].scrub) = (vec16 fun k => x[k].scrub).set j (.of v) := by
  refine vector_ext_fin fun k => ?_
  rw [vec16_getElem, set_getElem_fin, set_getElem_fin, vec16_getElem]
  split <;> rfl

theorem scrub_setW (j : Fin 16) (v : Word) : (s.setW j v).scrub = s.scrub.setW j v := by
  simp only [State.scrub, State.setW, vec16_scrub_set]

theorem scrub_setCH (k : Fin 16) (v : Word) : (s.setCH k v).scrub = s.scrub.setCH k v := by
  simp only [State.scrub, State.setCH, vec16_scrub_set]

theorem scrub_setS (n : Fin 4) (v : Word) : (s.setS n v).scrub = s.scrub.setS n v := rfl

theorem scrub_setDriver (d : Driver) : (s.setDriver d).scrub = s.scrub.setDriver d := rfl

/-! ### Commands -/

/-- R26 (4): the check sees only marks, so a command commutes with scrubbing when its results do once the registers it reads
are written. -/
theorem requireWritten_scrub {rs : List Reg} {t t' : State}
    (h : (∀ r ∈ rs, s.written r = true) → t' = t.scrub) :
    requireWritten rs s.scrub t' = scrubOutcome (requireWritten rs s t) := by
  by_cases hw : ∀ r ∈ rs, s.written r = true
  · have hw' : ∀ r ∈ rs, s.scrub.written r = true := fun r hr => (written_scrub s r).trans (hw r hr)
    rw [requireWritten_of_written hw, requireWritten_of_written hw', h hw]
    rfl
  · have hw' : ¬ ∀ r ∈ rs, s.scrub.written r = true := by simpa only [written_scrub] using hw
    rw [(requireWritten_of_unwritten hw).1, (requireWritten_of_unwritten hw').1, unwritten_scrub]
    rfl

/-- Section 2 of 42: what a command computes from OPA..OPD and OPM, it computes from the written values. -/
theorem operators_scrub (h : ∀ r ∈ operatorRegs, s.written r = true) :
    s.scrub.OPA.val = s.OPA.val ∧ s.scrub.OPB.val = s.OPB.val ∧ s.scrub.OPC.val = s.OPC.val ∧
      s.scrub.OPD.val = s.OPD.val ∧ s.scrub.OPM.val = s.OPM.val := by
  simp only [operatorRegs, List.forall_mem_cons] at h
  obtain ⟨ha, hb, hc, hd, hm, -⟩ := h
  exact ⟨value_scrub ha, value_scrub hb, value_scrub hc, value_scrub hd, value_scrub hm⟩

theorem forwardCommand_scrub (r : Round) (sh : Fin 32) :
    forwardCommand r sh s.scrub = scrubOutcome (forwardCommand r sh s) :=
  requireWritten_scrub fun h => by
    obtain ⟨ha, hb, hc, hd, hm⟩ := operators_scrub h
    rw [ha, hb, hc, hd, hm]
    rfl

theorem inverseCommand_scrub (r : Round) (sh : Fin 32) :
    inverseCommand r sh s.scrub = scrubOutcome (inverseCommand r sh s) :=
  requireWritten_scrub fun h => by
    obtain ⟨ha, hb, hc, hd, hm⟩ := operators_scrub h
    rw [ha, hb, hc, hd, hm]
    rfl

theorem applyCommand_scrub (T : Vector RefRule 5) : applyCommand T s.scrub = scrubOutcome (applyCommand T s) :=
  requireWritten_scrub fun h => by
    obtain ⟨ha, hb, hc, hd, hm⟩ := operators_scrub h
    rw [State.operands, ha, hb, hc, hd, hm]
    rfl

/-- R86: CT_APPLY.R1 reads only OPM and OPB. -/
theorem execCtApplyR1_scrub (k : Fin 16) : execCtApplyR1 k s.scrub = scrubOutcome (execCtApplyR1 k s) :=
  requireWritten_scrub fun h => by
    have hm : s.scrub.OPM.val = s.OPM.val := value_scrub (r := .opM) (h _ (by decide))
    have hb : s.scrub.OPB.val = s.OPB.val := value_scrub (r := .opB) (h _ (by decide))
    rw [hm, hb]
    rfl

/-- R89: a round-1 step reads no marked register but `W[k]`. -/
theorem r1StepOn_scrub {k : Fin 16} (h : s.written (.w k) = true) :
    r1StepOn s.scrub k = (r1StepOn s k).scrub := by
  simp only [r1StepOn, scrub_setCH, scrub_setS, scrub_setW, msg_scrub h, State.scrub_S, State.scrub_CTAB]

/-- R90: nor do the steps `ks` in sequence read another than their own words, which none of them clears. -/
theorem foldl_r1StepOn_scrub (ks : List (Fin 16)) (h : ∀ j, s.written (.w j) = true) :
    ks.foldl r1StepOn s.scrub = (ks.foldl r1StepOn s).scrub := by
  induction ks generalizing s with
  | nil => rfl
  | cons k ks ih =>
    have hk : ∀ j, (r1StepOn s k).written (.w j) = true := by
      intro j
      by_cases hj : j = k
      · exact hj ▸ (r1StepOn_written s k).1
      · exact (congrArg Marked.written (r1StepOn_ne s hj).1).trans (h j)
    rw [List.foldl_cons, List.foldl_cons, r1StepOn_scrub (h k)]
    exact ih hk

/-- R91: A5_CORRECT reads no marked registers but `W[0]` and `CH[1..4]`. -/
theorem a5CorrectOn_scrub (h : ∀ r ∈ a5Reads, s.written r = true) :
    a5CorrectOn s.scrub = (a5CorrectOn s).scrub := by
  have h0 := msg_scrub (h (.w 0) (by decide))
  have h1 := chain_scrub (h (.ch 1) (by decide))
  have h2 := chain_scrub (h (.ch 2) (by decide))
  have h3 := chain_scrub (h (.ch 3) (by decide))
  have h4 := chain_scrub (h (.ch 4) (by decide))
  simp only [a5CorrectOn, scrub_setCH, scrub_setS, scrub_setW, h0, h1, h2, h3, h4, State.scrub_S, State.scrub_I,
    State.scrub_CTAB]

/-- R92: D5_CORRECT reads no marked registers but `W[4]`, `CH[0..3]` and `CH[5..8]`. -/
theorem d5CorrectOn_scrub (h : ∀ r ∈ d5Reads, s.written r = true) :
    d5CorrectOn s.scrub = (d5CorrectOn s).scrub := by
  have h4 := msg_scrub (h (.w 4) (by decide))
  have hk : ∀ k, .ch k ∈ d5Reads → s.scrub.chain k = s.chain k := fun k hk => chain_scrub (h (.ch k) hk)
  simp only [d5CorrectOn, scrub_setCH, scrub_setS, scrub_setW, h4, hk 0 (by decide), hk 1 (by decide),
    hk 2 (by decide), hk 3 (by decide), hk 5 (by decide), hk 6 (by decide), hk 7 (by decide), hk 8 (by decide),
    State.scrub_S, State.scrub_CTAB]

/-- R63, R90: the commands that read the whole block check every word of W. -/
theorem written_w_of_reads {rs : List Reg} (h : ∀ r ∈ rs ++ messageRegs, s.written r = true) (j : Fin 16) :
    s.written (.w j) = true :=
  h _ (List.mem_append_right _ (List.mem_map_of_mem (mem_steps16 j)))

/-- R23, R120: no command depends on a value under a clear mark. -/
theorem exec_scrub (i : Instr) (s : State) : exec i s.scrub = scrubOutcome (exec i s) := by
  cases i with
  | nop | loadIv | ctLookupR1 _ => rfl
  | ctLookupA5 j | ctLookupD5 j =>
    simp only [exec, execCtLookupA5, execCtLookupD5]
    split <;> rfl
  | compress =>
    refine requireWritten_scrub fun h => ?_
    rw [block_scrub (written_w_of_reads h)]
    rfl
  | seed => exact requireWritten_scrub (s := s) (rs := initRegs) (t := s.setChain s.I) fun _ => rfl
  | capture => exact requireWritten_scrub (s := s) (rs := chainingRegs) (t := s.setInit s.S) fun _ => rfl
  | fwdF _ | fwdG _ | fwdH _ => exact forwardCommand_scrub ..
  | invF _ | invG _ | invH _ => exact inverseCommand_scrub ..
  | ctApplyR1 k => exact execCtApplyR1_scrub k
  | ctApplyA5 | ctApplyD5 => exact applyCommand_scrub _
  | r1Step k => exact requireWritten_scrub fun h => r1StepOn_scrub (h _ (by simp [r1StepReads]))
  | r1All => exact requireWritten_scrub fun h => foldl_r1StepOn_scrub _ (written_w_of_reads h)
  | a5Correct => exact requireWritten_scrub a5CorrectOn_scrub
  | d5Correct => exact requireWritten_scrub d5CorrectOn_scrub

/-! ### Accesses and the host's own steps -/

/-- R31: a host read checks the register that it returns. -/
theorem hostRead_scrub (r : Reg) (claim : Option Word) :
    hostRead r claim s.scrub = scrubOutcome (hostRead r claim s) :=
  requireWritten_scrub fun h => by
    rw [value_scrub (h r (List.mem_singleton_self r))]
    rfl

/-- R32: a host write reads nothing, and a write to CMD no more than its command does. -/
theorem hostWrite_scrub (r : Reg) (v : Word) : hostWrite r v s.scrub = scrubOutcome (hostWrite r v s) := by
  cases r with
  | cmd =>
    simp only [hostWrite, runCommand]
    split
    · rfl
    · exact exec_scrub _ (s.setCMD v)
  | status =>
    simp only [hostWrite, writeStatus]
    split <;> rfl
  | w j => exact congrArg Outcome.next (scrub_setW j v).symm
  | ch k => exact congrArg Outcome.next (scrub_setCH k v).symm
  | _ => rfl

theorem performAccess_scrub (a : Access) : performAccess a s.scrub = scrubOutcome (performAccess a s) := by
  cases a with
  | read w off claim =>
    simp only [performAccess]
    split
    · rfl
    · exact hostRead_scrub _ claim
  | write w off v =>
    simp only [performAccess]
    split
    · rfl
    · exact hostWrite_scrub _ v

/-- R96: what the host does between two accesses reads no register. -/
theorem findStep_scrub (group : Option Nat) (js : List Job) (d : Driver) :
    findStep group js d s.scrub = scrubOutcome (findStep group js d s) := by
  cases hphase : d.phase with
  | modify =>
    simp only [findStep, hphase]
    split <;> rfl
  | _ => simp only [findStep, hphase, scrubOutcome, scrub_setDriver]

theorem driverStep_scrub : driverStep s.scrub = scrubOutcome (driverStep s) := by
  simp only [driverStep, State.scrub_driver]
  cases s.driver.jobs with
  | nil => rfl
  | cons job js =>
    cases job with
    | find group => exact findStep_scrub group js _
    | _ => rfl

theorem step_scrub (s : State) : step s.scrub = scrubOutcome (step s) := by
  cases hp : s.driver.pending with
  | nil => rw [step_of_idle hp, step_of_idle (s := s.scrub) hp, driverStep_scrub]
  | cons a rest =>
    rw [step_of_pending hp, step_of_pending (s := s.scrub) hp, ← performAccess_scrub, scrub_setDriver]
    rfl

end Scrub

/-- Settles O25: states that differ only under clear marks are equal once scrubbed, and a step commutes with scrubbing. -/
theorem unwrittenValuesAreNeverObserved : Obligations.UnwrittenValuesAreNeverObserved := by
  unfold Obligations.UnwrittenValuesAreNeverObserved
  intro s t hst
  have hst : s.scrub = t.scrub := hst
  rw [outcomesSame_iff, ← step_scrub, ← step_scrub, hst]

end Sys2Proof.Machine
end

section
/-!
PROOFS. The statements of spec/10_state.md on a step: the command it runs (R26), what commands and steps leave alone (R14 to
R24), and what changes STATUS.ILL and I (R22, R15). Each follows from one list of what a step can do, `StepCase`.
-/

namespace Sys2Proof.Machine

/-! ### Decoded commands are well-formed -/

/-- What a part of the decoder answers is a well-formed command or none. -/
def GivesWf (o : Option Instr) : Prop := ∀ i, o = some i → i.wf = true

namespace GivesWf

theorem none : GivesWf .none := fun _ h => nomatch h

theorem some {i : Instr} (hi : i.wf = true) : GivesWf (.some i) := fun _ h => Option.some.inj h ▸ hi

theorem ite {p : Prop} [Decidable p] {o o' : Option Instr} (ho : p → GivesWf o) (ho' : GivesWf o') :
    GivesWf (if p then o else o') := by
  split
  next hp => exact ho hp
  next => exact ho'

variable {sh : BitVec 5} {rnd tbl : BitVec 2} {idx : BitVec 4}

theorem decodePlain {i : Instr} (hi : i.wf = true) : GivesWf (decodePlain i sh rnd tbl idx) :=
  ite (fun _ => some hi) none

theorem decodeStep {f g h : Instr} (hf : f.wf = true) (hg : g.wf = true) (hh : h.wf = true) :
    GivesWf (decodeStep f g h rnd tbl idx) :=
  ite (fun _ => ite (fun _ => some hf) <| ite (fun _ => some hg) <| ite (fun _ => some hh) none) none

/-- R45, R49: the index of CT_LOOKUP.A5 and CT_LOOKUP.D5 is checked. -/
theorem decodeLookup : GivesWf (decodeLookup sh rnd tbl idx) :=
  have hidx : idx.toNat ≤ 4 → (indexOfField idx).val ≤ 4 := (Nat.mod_le _ _).trans
  ite (fun _ => ite (fun _ => some rfl) <| ite (fun h => some (decide_eq_true (hidx h.2))) <|
    ite (fun h => some (decide_eq_true (hidx h.2))) none) none

theorem decodeApply : GivesWf (decodeApply sh rnd tbl idx) :=
  ite (fun _ => ite (fun _ => some rfl) <| ite (fun _ => some rfl) <| ite (fun _ => some rfl) none) none

theorem decodeR1Step : GivesWf (decodeR1Step sh rnd tbl idx) := ite (fun _ => some rfl) none

theorem decodeFields {op : BitVec 8} : GivesWf (decodeFields op sh rnd tbl idx) :=
  ite (fun _ => decodePlain rfl) <| ite (fun _ => decodePlain rfl) <| ite (fun _ => decodePlain rfl) <|
  ite (fun _ => decodePlain rfl) <| ite (fun _ => decodePlain rfl) <| ite (fun _ => decodeStep rfl rfl rfl) <|
  ite (fun _ => decodeStep rfl rfl rfl) <| ite (fun _ => decodeLookup) <| ite (fun _ => decodeApply) <|
  ite (fun _ => decodeR1Step) <| ite (fun _ => decodePlain rfl) <| ite (fun _ => decodePlain rfl) <|
  ite (fun _ => decodePlain rfl) none

end GivesWf

/-- R48, R49: the decoder gives only well-formed commands. -/
theorem decode_wf {c : Word} {i : Instr} (h : decode c = some i) : i.wf = true :=
  GivesWf.ite (fun _ => .none) .decodeFields i h

/-! ### Frames: what changes none but some registers -/

/-- From `s` to `t` no register changes but those of `rs`, and no written mark is cleared. -/
structure Changes (rs : List Reg) (s t : State) : Prop where
  value   : ∀ r, r ∉ rs → t.value r = s.value r
  written : ∀ r, r ∉ rs → t.written r = s.written r
  marks   : ∀ r, s.written r = true → t.written r = true

namespace Changes
variable {rs rs' : List Reg} {s t u : State}

theorem refl (s : State) : Changes [] s s := ⟨fun _ _ => rfl, fun _ _ => rfl, fun _ h => h⟩

theorem mono (h : Changes rs s t) (hsub : rs ⊆ rs') : Changes rs' s t :=
  ⟨fun r hr => h.value r fun hm => hr (hsub hm), fun r hr => h.written r fun hm => hr (hsub hm), h.marks⟩

theorem trans (h : Changes rs s t) (h' : Changes rs' t u) : Changes (rs ++ rs') s u where
  value r hr := by
    rw [List.mem_append, not_or] at hr
    exact (h'.value r hr.2).trans (h.value r hr.1)
  written r hr := by
    rw [List.mem_append, not_or] at hr
    exact (h'.written r hr.2).trans (h.written r hr.1)
  marks r hr := h'.marks r (h.marks r hr)

/-- R26 (4): a command that is checked and completes has the frame of its results. -/
theorem of_check (h : Changes rs s t) {reads : List Reg} (hc : requireWritten reads s t = .next u) : Changes rs s u := by
  obtain ⟨-, rfl⟩ := requireWritten_next.mp hc
  exact h

/-- R22: without STATUS among them, ILL stays. -/
theorem ILL (h : Changes rs s t) (hr : .status ∉ rs) : t.ILL = s.ILL := by
  have hword : t.statusWord = s.statusWord := h.value .status hr
  cases ht : t.ILL <;> cases hs : s.ILL <;> simp [State.statusWord, ht, hs] at hword ⊢

/-- R15: without a word of I among them, I stays. -/
theorem I (h : Changes rs s t) (hr : ∀ n, .i n ∉ rs) : t.I = s.I := vector_ext_fin fun n => h.value (.i n) (hr n)

/-! ### The frames of the named updates -/

variable (s)

/-- An update that leaves every mark and every value but that of `r`. -/
theorem of_value {r : Reg} {v : Word} (hv : ∀ r', t.value r' = if r' = r then v else s.value r')
    (hw : ∀ r', t.written r' = s.written r') : Changes [r] s t where
  value r' hr := (hv r').trans (if_neg (by simpa using hr))
  written r' _ := hw r'
  marks r' h := (hw r').trans h

/-- An update that leaves every value and every mark but those of `r`, and marks `r`. -/
theorem of_marked {r : Reg} {v : Word} (hv : ∀ r', t.value r' = if r' = r then v else s.value r')
    (hw : ∀ r', t.written r' = if r' = r then true else s.written r') : Changes [r] s t where
  value r' hr := (hv r').trans (if_neg (by simpa using hr))
  written r' hr := (hw r').trans (if_neg (by simpa using hr))
  marks r' h := by rw [hw, h, ite_self]

theorem setS (n : Fin 4) (v : Word) : Changes [.s n] s (s.setS n v) := of_value s (value_setS s n v) (written_setS s n v)

theorem setI (n : Fin 4) (v : Word) : Changes [.i n] s (s.setI n v) := of_value s (value_setI s n v) (written_setI s n v)

theorem setW (j : Fin 16) (v : Word) : Changes [.w j] s (s.setW j v) :=
  of_marked s (value_setW s j v) (written_setW s j v)

theorem setCH (k : Fin 16) (v : Word) : Changes [.ch k] s (s.setCH k v) :=
  of_marked s (value_setCH s k v) (written_setCH s k v)

theorem setRES (v : Word) : Changes [.res] s (s.setRES v) := of_marked s (value_setRES s v) (written_setRES s v)

theorem setCMD (c : Word) : Changes [.cmd] s (s.setCMD c) :=
  of_value s (v := c) (fun r => by cases r <;> rfl) (written_setCMD s c)

theorem setILL (b : Bool) : Changes [.status] s (s.setILL b) :=
  of_value s (v := (s.setILL b).statusWord) (fun r => by cases r <;> rfl) fun r => by cases r <;> rfl

theorem setDriver (d : Driver) : Changes [] s (s.setDriver d) :=
  ⟨fun r _ => value_setDriver s d r, fun r _ => written_setDriver s d r, fun r h => (written_setDriver s d r).trans h⟩

theorem setChain (x : Vector Word 4) : Changes (steps4.map .s) s (s.setChain x) where
  value r hr := by
    cases r with
    | s n => exact absurd (List.mem_map_of_mem (mem_steps4 n)) hr
    | _ => rfl
  written r _ := written_setChain s x r
  marks r h := (written_setChain s x r).trans h

theorem setInit (x : Vector Word 4) : Changes (steps4.map .i) s (s.setInit x) where
  value r hr := by
    cases r with
    | i n => exact absurd (List.mem_map_of_mem (mem_steps4 n)) hr
    | _ => rfl
  written r _ := written_setInit s x r
  marks r h := (written_setInit s x r).trans h

theorem setLK (x y z : Word) : Changes [.lk0, .lk1, .lk2] s (s.setLK x y z) where
  value r hr := by
    cases r with
    | lk0 | lk1 | lk2 => simp at hr
    | _ => rfl
  written r hr := by
    cases r with
    | lk0 | lk1 | lk2 => simp at hr
    | _ => rfl
  marks r h := by
    cases r with
    | lk0 | lk1 | lk2 => rfl
    | _ => exact h

/-! ### The frames of the commands -/

/-- R89: the registers that a round-1 step writes. -/
theorem r1StepOn (k : Fin 16) : Changes (writes (.r1Step k)) s (r1StepOn s k) :=
  (((setW s k _).trans (setS _ (target k) _)).trans (setCH _ k _)).mono (by simp [writes])

/-- R90: any steps in sequence write only S, W and CH. -/
theorem foldl_r1StepOn (ks : List (Fin 16)) : Changes (writes .r1All) s (ks.foldl Machine.r1StepOn s) := by
  induction ks generalizing s with
  | nil => exact (refl s).mono (List.nil_subset _)
  | cons k ks ih =>
    have hk : writes (.r1Step k) ⊆ writes .r1All := by
      simp [writes, mem_steps16, mem_steps4]
    exact (((r1StepOn s k).mono hk).trans (ih _)).mono (by simp)

/-- R91: in the order in which A5_CORRECT writes them. -/
theorem a5CorrectOn : Changes (writes .a5Correct) s (a5CorrectOn s) :=
  (setW s 0 _).trans (setW _ 1 _) |>.trans (setW _ 2 _) |>.trans (setW _ 3 _) |>.trans (setW _ 4 _)
    |>.trans (setCH _ 0 _) |>.trans (setS _ 0 _)

/-- R92: in the order in which D5_CORRECT writes them. -/
theorem d5CorrectOn : Changes (writes .d5Correct) s (d5CorrectOn s) :=
  (setW s 4 _).trans (setW _ 5 _) |>.trans (setW _ 6 _) |>.trans (setW _ 7 _) |>.trans (setW _ 8 _)
    |>.trans (setCH _ 4 _) |>.trans (setS _ 3 _)

end Changes

/-- R62 to R92: a legal command that completes changes only the registers of its "Writes" line. -/
theorem exec_changes {i : Instr} {s t : State} (hwf : i.wf = true) (h : exec i s = .next t) :
    Changes (writes i) s t := by
  cases i with
  | nop =>
    cases h
    exact .refl s
  | loadIv =>
    cases h
    exact .setChain s IV
  | ctLookupR1 k =>
    cases h
    exact .setLK s ..
  | ctLookupA5 j | ctLookupD5 j =>
    have hj : j.val < 5 := Nat.lt_succ_of_le (of_decide_eq_true hwf)
    simp only [exec, execCtLookupA5, execCtLookupD5, dif_pos hj] at h
    cases h
    exact .setLK s ..
  | compress => exact (Changes.setChain s _).of_check h
  | seed => exact (Changes.setChain s s.I).of_check (reads := initRegs) h
  | capture => exact (Changes.setInit s s.S).of_check (reads := chainingRegs) h
  | fwdF _ | fwdG _ | fwdH _ | invF _ | invG _ | invH _ => exact (Changes.setRES s _).of_check h
  | ctApplyR1 _ | ctApplyA5 | ctApplyD5 => exact (Changes.setRES s _).of_check h
  | r1Step k => exact (Changes.r1StepOn s k).of_check h
  | r1All => exact (Changes.foldl_r1StepOn s steps16).of_check h
  | a5Correct => exact (Changes.a5CorrectOn s).of_check h
  | d5Correct => exact (Changes.d5CorrectOn s).of_check h

/-- R22: no command writes STATUS. -/
theorem status_notMem_writes (i : Instr) : .status ∉ writes i := by
  cases i <;> simp [writes]

/-- R65: only CAPTURE writes I. -/
theorem init_notMem_writes {i : Instr} (hi : i ≠ .capture) (n : Fin 4) : .i n ∉ writes i := by
  cases i with
  | capture => exact absurd rfl hi
  | _ => simp [writes]

/-- R65: what CAPTURE leaves. -/
theorem exec_capture_next {s t : State} (h : exec .capture s = .next t) : t = s.setInit s.S :=
  ((requireWritten_next (rs := chainingRegs) (s := s) (t := s.setInit s.S)).mp h).2

/-- Settles O19: the frame of each command, with the host's side and the tables untouched. -/
theorem commandsWriteOnlyTheirRegisters : Obligations.CommandsWriteOnlyTheirRegisters := by
  unfold Obligations.CommandsWriteOnlyTheirRegisters
  intro i s t hwf h
  have hc := exec_changes hwf h
  obtain ⟨hdriver, hctab⟩ := exec_keeps_host h
  exact ⟨fun r hr => ⟨hc.value r hr, hc.written r hr⟩, hc.ILL (status_notMem_writes i), hctab, hdriver⟩

/-! ### What a step can do -/

/-- R28: a register stands only at its own offset. -/
theorem offset_of_regAtWord : ∀ n < 64, ∀ r ∈ regAtWord n, r.offset = 4 * n := by decide

/-- R29, R30: an access that passes the checks is 32 bits wide, at the offset of its register. -/
theorem checkAccess_ok {width off : Nat} {r : Reg} (h : checkAccess width off = .ok r) :
    width = 32 ∧ off = r.offset := by
  unfold checkAccess at h
  split at h
  · cases h
  next hle =>
    split at h
    · cases h
    next hal =>
      split at h
      · cases h
      next r' hr =>
        cases h
        rw [not_or, not_not, not_not] at hal
        rw [regAt, if_pos hal.2] at hr
        have := offset_of_regAtWord (off / 4) (by omega) r hr
        exact ⟨hal.1, by omega⟩

/-- The state in which the host's next access is made: that access has left the queue, and `rest` is left. -/
def State.queued (s : State) (rest : List Access) : State := s.setDriver { s.driver with pending := rest }

/-- R32: with a write to a register pending, the step is that write. -/
theorem step_of_write {r : Reg} {v : Word} {rest : List Access} {s : State}
    (hp : s.driver.pending = .write 32 r.offset v :: rest) : step s = hostWrite r v (s.queued rest) := by
  rw [step_of_pending hp, performAccess_write]
  rfl

/-- R26, R31, R32, R96: all that a step from `s` to `t` can be. -/
inductive StepCase (s t : State) : Prop
  /-- A host read, or the host's own work: no register changes. -/
  | quiet (d : Driver) (ht : t = s.setDriver d)
  /-- A write of an illegal word to CMD. -/
  | illegal (c : Word) (rest : List Access) (hp : s.driver.pending = .write 32 0x00 c :: rest)
      (hd : decode c = none) (ht : t = raiseIllegalCommand c (s.queued rest))
  /-- A write of a legal word to CMD, and its command. -/
  | command (c : Word) (i : Instr) (rest : List Access) (hp : s.driver.pending = .write 32 0x00 c :: rest)
      (hd : decode c = some i) (he : exec i ((s.queued rest).setCMD c) = .next t)
  /-- A write to STATUS. -/
  | status (v : Word) (rest : List Access) (hp : s.driver.pending = .write 32 0x04 v :: rest)
      (ht : t = writeStatus v (s.queued rest))
  /-- A write to a data register. -/
  | data (r : Reg) (v : Word) (rest : List Access) (hp : s.driver.pending = .write 32 r.offset v :: rest)
      (hcmd : r ≠ .cmd) (hstatus : r ≠ .status) (hc : Changes [r] s t)

/-- R32: a host write to a data register changes that register alone. -/
theorem hostWrite_changes {r : Reg} {v : Word} {s t : State} (hcmd : r ≠ .cmd) (hstatus : r ≠ .status)
    (h : hostWrite r v s = .next t) : Changes [r] s t := by
  cases r with
  | cmd => exact absurd rfl hcmd
  | status => exact absurd rfl hstatus
  | s n => cases h; exact .setS s n v
  | i n => cases h; exact .setI s n v
  | w j => cases h; exact .setW s j v
  | ch k => cases h; exact .setCH s k v
  | res | lk0 | lk1 | lk2 => cases h
  | opA | opB | opC | opD | opM =>
    cases h
    exact .of_marked s (v := v) (fun r => by cases r <;> rfl) fun r => by cases r <;> rfl

theorem stepCase_of_write {r : Reg} {v : Word} {rest : List Access} {s t : State}
    (hp : s.driver.pending = .write 32 r.offset v :: rest) (h : hostWrite r v (s.queued rest) = .next t) :
    StepCase s t := by
  by_cases hcmd : r = .cmd
  · subst hcmd
    simp only [hostWrite, runCommand] at h
    split at h
    next hd =>
      cases h
      exact .illegal v rest hp hd rfl
    next i hd => exact .command v i rest hp hd h
  by_cases hstatus : r = .status
  · subst hstatus
    cases h
    exact .status v rest hp rfl
  exact .data r v rest hp hcmd hstatus ((Changes.setDriver s _).trans (hostWrite_changes hcmd hstatus h))

/-- R37: a step that completes is one of these. -/
theorem stepCase_of_step {s t : State} (h : step s = .next t) : StepCase s t := by
  cases hp : s.driver.pending with
  | nil =>
    obtain ⟨d, ht⟩ := driverStep_next (step_of_idle hp ▸ h)
    exact .quiet d ht
  | cons a rest =>
    rw [step_of_pending hp] at h
    cases a with
    | read width off claim =>
      simp only [performAccess] at h
      split at h
      · cases h
      next r _ =>
        obtain ⟨-, ht⟩ := requireWritten_next.mp h
        exact .quiet _ ht
    | write width off v =>
      simp only [performAccess] at h
      split at h
      · cases h
      next r hok =>
        obtain ⟨rfl, rfl⟩ := checkAccess_ok hok
        exact stepCase_of_write hp h

/-! ### The frame of a step -/

/-- R112: taking IllegalCommand writes CMD and STATUS. -/
theorem raiseIllegalCommand_changes (c : Word) (s : State) :
    Changes [.cmd, .status] s (raiseIllegalCommand c s) :=
  (Changes.setCMD s c).trans (.setILL _ true)

/-- R22, R32: exactly ILL changes, and it stays when bit 0 of the written word is 0. -/
theorem writeStatus_eq (v : Word) (s : State) : writeStatus v s = s.setILL (s.ILL && !v[0]) := by
  unfold writeStatus
  split
  next hv => rw [hv, Bool.not_true, Bool.and_false, returnFromIllegal]
  next hv =>
    rw [Bool.eq_false_iff.mpr hv, Bool.not_false, Bool.and_true]
    rfl

theorem writeStatus_changes (v : Word) (s : State) : Changes [.status] s (writeStatus v s) := by
  rw [writeStatus_eq]
  exact .setILL s _

theorem command_changes {c : Word} {i : Instr} {rest : List Access} {s t : State} (hd : decode c = some i)
    (he : exec i ((s.queued rest).setCMD c) = .next t) : Changes (.cmd :: writes i) s t :=
  ((Changes.setDriver s _).trans (.setCMD _ c)).trans (exec_changes (decode_wf hd) he)

/-- R23: whatever a step is, it clears no written mark. -/
theorem StepCase.keeps_marks {s t : State} (h : StepCase s t) {r : Reg} (hr : s.written r = true) :
    t.written r = true := by
  cases h with
  | quiet d ht => exact ht ▸ (Changes.setDriver s d).marks r hr
  | illegal c rest _ _ ht =>
    exact ht ▸ ((Changes.setDriver s _).trans (raiseIllegalCommand_changes c _)).marks r hr
  | command c i rest _ hd he => exact (command_changes hd he).marks r hr
  | status v rest _ ht => exact ht ▸ ((Changes.setDriver s _).trans (writeStatus_changes v _)).marks r hr
  | data r' v rest _ _ _ hc => exact hc.marks r hr

/-- R24: a step leaves the tables. -/
theorem step_keeps_tables {s t : State} (h : step s = .next t) : t.CTAB = s.CTAB := by
  cases hp : s.driver.pending with
  | nil =>
    obtain ⟨d, rfl⟩ := driverStep_next (step_of_idle hp ▸ h)
    rfl
  | cons a rest =>
    rw [step_of_pending hp] at h
    exact (performAccess_next h).1

/-- Settles O20: each case of a step keeps the marks, and the tables are touched by none. -/
theorem stepKeepsMarksAndTables : Obligations.StepKeepsMarksAndTables := by
  unfold Obligations.StepKeepsMarksAndTables
  exact fun s t h => ⟨step_keeps_tables h, fun r => (stepCase_of_step h).keeps_marks⟩

/-! ### STATUS.ILL (R22) -/

/-- R22: a step leaves ILL, or sets it for an illegal word written to CMD, or clears it by a write to STATUS. -/
theorem StepCase.ILL_cases {s t : State} (h : StepCase s t) :
    t.ILL = s.ILL ∨
      (t.ILL = true ∧ ∃ c rest, s.driver.pending = .write 32 0x00 c :: rest ∧ decode c = none ∧ t.CMD = c) ∨
      (t.ILL = false ∧ ∃ v rest, s.driver.pending = .write 32 0x04 v :: rest ∧ v[0] = true) := by
  cases h with
  | quiet d ht => exact .inl (ht ▸ rfl)
  | illegal c rest hp hd ht =>
    subst ht
    exact .inr (.inl ⟨rfl, c, rest, hp, hd, rfl⟩)
  | command c i rest _ hd he =>
    exact .inl ((command_changes hd he).ILL (by simp [status_notMem_writes]))
  | status v rest hp ht =>
    have hill : t.ILL = (s.ILL && !v[0]) := by
      rw [ht, writeStatus_eq]
      rfl
    cases hv : v[0] with
    | false => exact .inl (by simpa [hv] using hill)
    | true => exact .inr (.inr ⟨by simpa [hv] using hill, v, rest, hp, hv⟩)
  | data r v rest _ _ hstatus hc => exact .inl (hc.ILL (by simpa using hstatus.symm))

/-- Settles O9: of the ways a step can treat ILL, only the write to STATUS leaves it clear when it was set. -/
theorem onlyTheHostClearsIll : Obligations.OnlyTheHostClearsIll := by
  unfold Obligations.OnlyTheHostClearsIll
  intro s t h hs ht
  obtain hkept | ⟨hset, -⟩ | ⟨-, hwrite⟩ := (stepCase_of_step h).ILL_cases
  · simp [hs, ht] at hkept
  · simp [ht] at hset
  · exact hwrite

/-- Settles O10: of the ways a step can treat ILL, only an illegal word leaves it set when it was clear. -/
theorem onlyAnIllegalWordSetsIll : Obligations.OnlyAnIllegalWordSetsIll := by
  unfold Obligations.OnlyAnIllegalWordSetsIll
  intro s t h hs ht
  obtain hkept | ⟨-, hillegal⟩ | ⟨hclear, -⟩ := (stepCase_of_step h).ILL_cases
  · simp [hs, ht] at hkept
  · exact hillegal
  · simp [ht] at hclear

/-- Settles O11: the access at STATUS's offset is `writeStatus`, which changes ILL alone. -/
theorem statusIsWriteOneToClear : Obligations.StatusIsWriteOneToClear := by
  unfold Obligations.StatusIsWriteOneToClear
  intro s v rest hp
  rw [step_of_write (r := .status) hp, hostWrite, writeStatus_eq]
  rfl

/-! ### The init state I (R15) -/

/-- Settles O21: a command other than CAPTURE has no word of I in its frame, and a data write only its own register. -/
theorem onlyCaptureAndHostWritesChangeInit : Obligations.OnlyCaptureAndHostWritesChangeInit := by
  unfold Obligations.OnlyCaptureAndHostWritesChangeInit
  intro s t h hI
  cases stepCase_of_step h with
  | quiet d ht => exact absurd (ht ▸ rfl) hI
  | illegal c rest _ _ ht => exact absurd (ht ▸ rfl) hI
  | status v rest _ ht => exact absurd (by rw [ht, writeStatus_eq]; rfl) hI
  | command c i rest hp hd he =>
    by_cases hi : i = .capture
    · subst hi
      obtain rfl := exec_capture_next he
      exact ⟨0x00, c, rest, hp, .inl ⟨rfl, hd, rfl⟩⟩
    · exact absurd ((command_changes hd he).I (by simp [init_notMem_writes hi])) hI
  | data r v rest hp _ _ hc =>
    by_cases hr : ∃ n, r = .i n
    · obtain ⟨n, rfl⟩ := hr
      exact ⟨_, v, rest, hp, .inr (by simp only [Reg.offset]; omega)⟩
    · exact absurd (hc.I fun n hn => hr ⟨n, (List.mem_singleton.mp hn).symm⟩) hI

/-! ### The command that a step runs (R26) -/

/-- Settles O6: the access at CMD's offset runs the decoded command. -/
theorem stepRunsTheDecodedCommand : Obligations.StepRunsTheDecodedCommand := by
  unfold Obligations.StepRunsTheDecodedCommand
  intro s c rest i hp hd
  rw [step_of_write (r := .cmd) hp]
  simp only [hostWrite, runCommand, hd]
  rfl

/-- R42: a word of the table's width is decoded as it stands. -/
theorem decodeTableWord_toNat (c : Word) : decodeTableWord 32 c.toNat = decode c := by
  have hc : c.toNat % 2 ^ 32 = c.toNat := Nat.mod_eq_of_lt c.isLt
  simp only [decodeTableWord, hc, if_pos c.isLt, BitVec.ofNat_toNat, BitVec.setWidth_eq]

/-- The access that `withFetchWord` places is a write of that word to CMD. -/
theorem withFetchWord_pending (s : State) (c : Word) :
    (s.withFetchWord 32 c.toNat).driver.pending = .write 32 0x00 c :: s.driver.pending := by
  have hc : BitVec.ofNat 32 (c.toNat % 2 ^ 32) = c := by
    rw [Nat.mod_eq_of_lt c.isLt, BitVec.ofNat_toNat, BitVec.setWidth_eq]
  rw [State.withFetchWord, hc]
  rfl

/-- Settles O7: the step takes the placed access and runs its command, as every write of a legal word to CMD. -/
theorem fetchWordRunsNext : Obligations.FetchWordRunsNext := by
  unfold Obligations.FetchWordRunsNext
  intro s c i hd
  exact ⟨(decodeTableWord_toNat c).trans hd, stepRunsTheDecodedCommand _ c _ i (withFetchWord_pending s c) hd⟩

end Sys2Proof.Machine
end

section
/-!
PROOFS. The statements of spec/20_memory.md: the register map (R28), the checks of an access (R29, R30, R113), what a host read
and a write to a data register do (R31, R32), and the byte order of blocks and states (R34 to R36).
-/

namespace Sys2Proof.Machine

/-! ### The register map (R28) -/

/-- R28: the words of the window past LK2 hold no register. -/
theorem regAtWord_eq_none_of_le {n : Nat} (h : 57 ≤ n) : regAtWord n = none := by
  simp (disch := omega) only [regAtWord, if_neg]

/-- R28: a register is found at no offset but its own. -/
theorem offset_of_regAt {off : Nat} {r : Reg} (h : regAt off = some r) : r.offset = off := by
  unfold regAt at h
  split at h
  next hal =>
    have hlt : off / 4 < 64 := by
      by_contra hge
      rw [regAtWord_eq_none_of_le (by omega)] at h
      cases h
    have := offset_of_regAtWord (off / 4) hlt r h
    omega
  next => cases h

/-- R28, R30: the offsets within the window that the map reserves. -/
def ReservedOffset (off : Nat) : Prop :=
  (0x08 ≤ off ∧ off ≤ 0x0C) ∨ (0x30 ≤ off ∧ off ≤ 0x3C) ∨ 0xE4 ≤ off

theorem offset_not_reserved (r : Reg) : ¬ ReservedOffset r.offset := by
  unfold ReservedOffset
  cases r with
  | s n | i n | w j | ch k => simp only [Reg.offset]; omega
  | _ => decide

/-- R30: nothing stands at a reserved offset. -/
theorem regAt_of_reserved {off : Nat} (h : ReservedOffset off) : regAt off = none :=
  Option.eq_none_iff_forall_not_mem.mpr fun r hr => offset_not_reserved r (offset_of_regAt hr ▸ h)

/-- Settles O15: the map and its inverse `regAt` agree in both directions. -/
theorem registerMapIsOneToOne : Obligations.RegisterMapIsOneToOne := by
  unfold Obligations.RegisterMapIsOneToOne
  refine ⟨⟨rfl, rfl, fun _ => ⟨rfl, rfl⟩, fun _ => ⟨rfl, rfl⟩, rfl⟩,
    fun r => ⟨regAt_offset r, offset_aligned r, offset_le r⟩, fun _ _ => offset_of_regAt, ?_⟩
  have hreserved : ∀ off ∈ [0x08, 0x0C, 0x30, 0x34, 0x38, 0x3C, 0xE4, 0xE8, 0xEC, 0xF0, 0xF4, 0xF8, 0xFC],
      ReservedOffset off := by
    unfold ReservedOffset
    decide
  exact fun off h => regAt_of_reserved (hreserved off h)

/-! ### The checks of an access, in their order (R29, R30, R113) -/

/-- R29: the first check within the window is that of width and alignment. -/
theorem checkAccess_misaligned {width off : Nat} (hle : off ≤ 0xFF) (h : width ≠ 32 ∨ off % 4 ≠ 0) :
    checkAccess width off = .error .misalignedOrNarrowAccess := by
  rw [checkAccess, if_neg (Nat.not_lt.mpr hle), if_pos h]

/-- R30: the second is that of the reserved offsets. -/
theorem checkAccess_reserved {off : Nat} (hle : off ≤ 0xFF) (hal : off % 4 = 0) (h : ReservedOffset off) :
    checkAccess 32 off = .error .reservedOffset := by
  rw [checkAccess, if_neg (Nat.not_lt.mpr hle), if_neg (by simp [hal]), regAt_of_reserved h]

/-- R113: what the checks refuse is refused, as a read and as a write. -/
theorem performAccess_of_error {width off : Nat} {e : Refusal} (h : checkAccess width off = .error e)
    (claim : Option Word) (v : Word) (s : State) :
    performAccess (.read width off claim) s = .refused e ∧ performAccess (.write width off v) s = .refused e := by
  simp only [performAccess, h, and_self]

/-- R28: RES and LK0..LK2 fill the words from 0xD4 to 0xE0. -/
theorem readOnly_of_offset {off : Nat} (hal : off % 4 = 0) (hlo : 0xD4 ≤ off) (hhi : off ≤ 0xE0) :
    ∃ r ∈ [Reg.res, .lk0, .lk1, .lk2], off = r.offset := by
  have : off = 0xD4 ∨ off = 0xD8 ∨ off = 0xDC ∨ off = 0xE0 := by omega
  simpa [Reg.offset] using this

/-- R32: a write to RES, LK0, LK1 or LK2 is refused. -/
theorem hostWrite_readOnly {r : Reg} (h : r ∈ [Reg.res, .lk0, .lk1, .lk2]) (v : Word) (s : State) :
    hostWrite r v s = .refused .readOnlyWrite := by
  simp only [List.mem_cons, List.not_mem_nil, or_false] at h
  obtain rfl | rfl | rfl | rfl := h <;> rfl

/-- Settles O16: the shared checks come first, then a write is refused by the class of its register. -/
theorem accessChecksInOrder : Obligations.AccessChecksInOrder := by
  unfold Obligations.AccessChecksInOrder
  intro s width off v claim hle
  refine ⟨fun h => performAccess_of_error (checkAccess_misaligned hle h) claim v s, ?_, ?_⟩
  · rintro rfl hal h
    exact performAccess_of_error (checkAccess_reserved hle hal h) claim v s
  · rintro rfl hal hlo hhi
    obtain ⟨r, hr, rfl⟩ := readOnly_of_offset hal hlo hhi
    rw [performAccess_write, hostWrite_readOnly hr]

/-! ### Host reads (R31) -/

/-- R31: with a read of a register pending, the step is that read. -/
theorem step_of_read {r : Reg} {claim : Option Word} {rest : List Access} {s : State}
    (hp : s.driver.pending = .read 32 r.offset claim :: rest) : step s = hostRead r claim (s.queued rest) := by
  rw [step_of_pending hp, performAccess_read]
  rfl

theorem hostRead_of_written {r : Reg} {s : State} (h : s.written r = true) (claim : Option Word) :
    hostRead r claim s = .next (s.setDriver (s.driver.receive claim (s.value r))) :=
  requireWritten_of_written (by simpa using h)

theorem hostRead_of_unwritten {r : Reg} {s : State} (h : s.written r = false) (claim : Option Word) :
    hostRead r claim s = .fault (.unwrittenRead [r]) := by
  have hone : s.unwritten [r] = [r] := by simp [State.unwritten, h]
  rw [hostRead, (requireWritten_of_unwritten (by simp [h])).1, hone]

/-- R127: a read with no stated value adds to the read log alone. -/
theorem receive_none (d : Driver) (v : Word) : d.receive none v = { d with readLog := v :: d.readLog } := by
  simp only [Driver.receive, claimBroken, Bool.or_false]

@[simp] theorem written_queued (s : State) (rest : List Access) (r : Reg) : (s.queued rest).written r = s.written r :=
  written_setDriver s _ r

@[simp] theorem value_queued (s : State) (rest : List Access) (r : Reg) : (s.queued rest).value r = s.value r :=
  value_setDriver s _ r

/-- R22: bit 0 of STATUS is ILL, and the others are zero. -/
theorem statusWord_getElem (s : State) (n : Fin 32) : s.statusWord[n] = (s.ILL && n == 0) := by
  have hone : ∀ m : Fin 32, (1 : Word)[m] = (m == 0) := by decide
  cases h : s.ILL with
  | false => simp [State.statusWord, h]
  | true => simpa [State.statusWord, h] using hone n

/-- Settles O12: the step is the read, which is checked for the mark of its register and adds to the read log. -/
theorem hostReadReturnsTheValueOnly : Obligations.HostReadReturnsTheValueOnly := by
  unfold Obligations.HostReadReturnsTheValueOnly
  refine ⟨fun s r rest hp => ⟨fun hw => ?_, fun hw => ?_⟩, fun s => ⟨rfl, ?_, fun n hn => ?_⟩⟩
  · rw [step_of_read hp, hostRead_of_written (by simpa using hw), receive_none, value_queued]
    rfl
  · rw [step_of_read hp, hostRead_of_unwritten (by simpa using hw)]
  · exact (statusWord_getElem s 0).trans (Bool.and_true _)
  · rw [State.value_status, statusWord_getElem, beq_false_of_ne hn.ne', Bool.and_false]

/-! ### Host writes to data registers (R32) -/

/-- R32: a host write to a data register completes, and leaves the value there under a set mark. -/
theorem hostWrite_stores {r : Reg} (h : r ∉ [Reg.cmd, .status, .res, .lk0, .lk1, .lk2]) (v : Word) (s : State) :
    ∃ t, hostWrite r v s = .next t ∧ t.value r = v ∧ t.written r = true := by
  cases r with
  | cmd | status | res | lk0 | lk1 | lk2 => simp at h
  | s n => exact ⟨_, rfl, by rw [value_setS, if_pos rfl], rfl⟩
  | i n => exact ⟨_, rfl, by rw [value_setI, if_pos rfl], rfl⟩
  | w j => exact ⟨_, rfl, by rw [value_setW, if_pos rfl], by rw [written_setW, if_pos rfl]⟩
  | ch k => exact ⟨_, rfl, by rw [value_setCH, if_pos rfl], by rw [written_setCH, if_pos rfl]⟩
  | opA | opB | opC | opD | opM => exact ⟨_, rfl, rfl, rfl⟩

/-- Settles O14: the write stores the value, and its frame is that one register. -/
theorem hostWriteStoresAndMarks : Obligations.HostWriteStoresAndMarks := by
  unfold Obligations.HostWriteStoresAndMarks
  intro s r v rest hp hr
  obtain ⟨t, hwrite, hvalue, hmark⟩ := hostWrite_stores hr v (s.queued rest)
  have hcmd : r ≠ .cmd := fun e => hr (by simp [e])
  have hstatus : r ≠ .status := fun e => hr (by simp [e])
  have hframe : Changes [r] s t := (Changes.setDriver s _).trans (hostWrite_changes hcmd hstatus hwrite)
  obtain ⟨hdriver, hctab⟩ := hostWrite_next hwrite
  refine ⟨t, (step_of_write hp).trans hwrite, hvalue, hmark, fun r' hne => ?_,
    hframe.ILL (by simpa using hstatus.symm), hctab, hdriver⟩
  have hother : r' ∉ [r] := by simpa using hne
  exact ⟨hframe.value r' hother, hframe.written r' hother⟩

/-! ### Byte order (R34 to R36) -/

/-- R34: bit by bit, a packed word is its four bytes, the least significant first. -/
theorem packWord_getElem (b0 b1 b2 b3 : Byte) {i : Nat} (hi : i < 32) :
    (packWord b0 b1 b2 b3)[i] =
      if i < 8 then b0.getLsbD i else if i < 16 then b1.getLsbD (i - 8)
      else if i < 24 then b2.getLsbD (i - 16) else b3.getLsbD (i - 24) := by
  grind [packWord]

/-- R35, R36: packing the bytes that LE lists gives the word back. -/
theorem packWord_extract (x : Word) :
    packWord (x.extractLsb' 0 8) (x.extractLsb' 8 8) (x.extractLsb' 16 8) (x.extractLsb' 24 8) = x := by
  ext i hi
  rw [packWord_getElem]
  grind

/-- R35, R36: LE lists the bytes that were packed. -/
theorem serializeWord_packWord (b0 b1 b2 b3 : Byte) : serializeWord (packWord b0 b1 b2 b3) = [b0, b1, b2, b3] := by
  simp only [serializeWord, List.cons.injEq, and_true]
  refine ⟨?_, ?_, ?_, ?_⟩ <;> ext i hi <;> grind [packWord_getElem]

@[simp] theorem serializeWord_length (x : Word) : (serializeWord x).length = 4 := rfl

/-- R36: byte `n` of `LE(x)` is `x` shifted down by `n` bytes. -/
theorem serializeWord_getD (x : Word) (n : Fin 4) : (serializeWord x).getD n.val 0 = x.extractLsb' (8 * n.val) 8 := by
  fin_cases n <;> rfl

theorem serializeWord_getD_toNat (x : Word) (n : Fin 4) :
    ((serializeWord x).getD n.val 0).toNat = x.toNat / 2 ^ (8 * n.val) % 256 := by
  rw [serializeWord_getD, BitVec.extractLsb'_toNat, Nat.shiftRight_eq_div_pow]

/-- R34: a word is determined by its bytes. -/
theorem word_eq_of_bytes {x y : Word}
    (h : ∀ n : Fin 4, (serializeWord x).getD n.val 0 = (serializeWord y).getD n.val 0) : x = y := by
  have h0 : x.extractLsb' 0 8 = y.extractLsb' 0 8 := h 0
  have h1 : x.extractLsb' 8 8 = y.extractLsb' 8 8 := h 1
  have h2 : x.extractLsb' 16 8 = y.extractLsb' 16 8 := h 2
  have h3 : x.extractLsb' 24 8 = y.extractLsb' 24 8 := h 3
  rw [← packWord_extract x, h0, h1, h2, h3, packWord_extract]

/-- R35: a list of words serializes to four bytes each. -/
theorem flatMap_serializeWord_length (ws : List Word) : (ws.flatMap serializeWord).length = 4 * ws.length := by
  simp [List.length_flatMap, mul_comm]

/-- R35: the bytes of word `j` stand at `4 * j`. -/
theorem flatMap_serializeWord_getD {ws : List Word} {j : Nat} (hj : j < ws.length) (n : Fin 4) :
    (ws.flatMap serializeWord).getD (4 * j + n.val) 0 = (serializeWord ws[j]).getD n.val 0 := by
  induction ws generalizing j with
  | nil => cases hj
  | cons w ws ih =>
    rw [List.flatMap_cons]
    cases j with
    | zero => rw [Nat.mul_zero, Nat.zero_add, List.getD_append _ _ _ _ n.isLt, List.getElem_cons_zero]
    | succ j =>
      have hoff : 4 * (j + 1) + n.val = (serializeWord w).length + (4 * j + n.val) := by
        rw [serializeWord_length]
        omega
      rw [hoff, List.getD_append_right _ _ _ _ (Nat.le_add_right _ _), Nat.add_sub_cancel_left,
        List.getElem_cons_succ, ih (Nat.lt_of_succ_lt_succ hj)]

theorem packBlock_getElem (bs : List Byte) (j : Fin 16) :
    (packBlock bs)[j] = packWord (bs.getD (4 * j.val) 0) (bs.getD (4 * j.val + 1) 0) (bs.getD (4 * j.val + 2) 0)
      (bs.getD (4 * j.val + 3) 0) := vec16_getElem _ j

/-- R35: byte `n` of word `j` of a packed block is byte `4 * j + n` of the sequence. -/
theorem serializeWord_packBlock_getD (bs : List Byte) (j : Fin 16) (n : Fin 4) :
    (serializeWord (packBlock bs)[j]).getD n.val 0 = bs.getD (4 * j.val + n.val) 0 := by
  rw [packBlock_getElem, serializeWord_packWord]
  fin_cases n <;> rfl

/-- R35: byte `n` of word `j` of a block is byte `4 * j + n` of its serialization. -/
theorem serializeBlock_getD (W : Vector Word 16) (j : Fin 16) (n : Fin 4) :
    (serializeBlock W).getD (4 * j.val + n.val) 0 = (serializeWord W[j]).getD n.val 0 :=
  flatMap_serializeWord_getD (ws := W.toList) (by simp) n

theorem serializeBlock_length (W : Vector Word 16) : (serializeBlock W).length = 64 := by
  rw [serializeBlock, flatMap_serializeWord_length, Vector.length_toList]

theorem packBlock_serializeBlock (W : Vector Word 16) : packBlock (serializeBlock W) = W :=
  vector_ext_fin fun j => word_eq_of_bytes fun n =>
    (serializeWord_packBlock_getD _ j n).trans (serializeBlock_getD W j n)

theorem serializeBlock_packBlock {bs : List Byte} (h : bs.length = 64) : serializeBlock (packBlock bs) = bs := by
  apply List.ext_getElem ((serializeBlock_length _).trans h.symm)
  intro k hk hk'
  obtain ⟨j, n, rfl⟩ : ∃ (j : Fin 16) (n : Fin 4), k = 4 * j.val + n.val :=
    ⟨⟨k / 4, by omega⟩, ⟨k % 4, by omega⟩, (Nat.div_add_mod k 4).symm⟩
  have hbyte := (serializeBlock_getD (packBlock bs) j n).trans (serializeWord_packBlock_getD bs j n)
  rwa [List.getD_eq_getElem _ _ hk, List.getD_eq_getElem _ _ hk'] at hbyte

theorem serializeState_eq (x : Vector Word 4) :
    serializeState x = serializeWord x[0] ++ serializeWord x[1] ++ serializeWord x[2] ++ serializeWord x[3] := by
  rw [← vec4_eta x]
  simp [serializeState, vec4]

/-- Settles O46: byte `n` of word `j` is byte `4 * j + n` in both directions, and a word is its four bytes. -/
theorem blockBytesRoundTrip : Obligations.BlockBytesRoundTrip := by
  unfold Obligations.BlockBytesRoundTrip
  refine ⟨fun W => ⟨packBlock_serializeBlock W, serializeBlock_length W⟩, fun bs => serializeBlock_packBlock,
    fun bs j n _ => ?_, fun x n => ⟨serializeWord_length x, serializeWord_getD_toNat x n⟩, serializeState_eq⟩
  rw [← serializeWord_getD_toNat, serializeWord_packBlock_getD]

end Sys2Proof.Machine
end

section
/-!
PROOFS. The statements of spec/30_encoding.md: the fields of a written word (R42), the decoder and the encoder undo each
other (R48, R49, R52), the rows of the map (R48) and the assembler (R51).
-/

namespace Sys2Proof.Machine

/-! ### The fields of a written word (R42) -/

section Fields
variable (op : BitVec 8) (sh : Fin 32) (rnd tbl : BitVec 2) (idx : Fin 16)

/-- R42: bit by bit, the word with the given fields. -/
theorem commandWord_getElem {n : Nat} (hn : n < 32) :
    (commandWord op sh rnd tbl idx)[n] =
      if n < 8 then op.getLsbD n else if n < 13 then (BitVec.ofFin (w := 5) sh).getLsbD (n - 8)
      else if n < 16 then false else if n < 18 then rnd.getLsbD (n - 16) else if n < 20 then tbl.getLsbD (n - 18)
      else (BitVec.ofFin (w := 4) idx).getLsbD (n - 20) := by
  have hs : BitVec.ofNat 32 sh.val = (BitVec.ofFin (w := 5) sh).setWidth 32 := BitVec.ofNat_toNat ..
  have hi : BitVec.ofNat 32 idx.val = (BitVec.ofFin (w := 4) idx).setWidth 32 := BitVec.ofNat_toNat ..
  rw [commandWord, hs, hi]
  grind

@[simp] theorem opField_commandWord : opField (commandWord op sh rnd tbl idx) = op := by
  ext n hn
  grind [opField, commandWord_getElem]

@[simp] theorem shField_commandWord : shField (commandWord op sh rnd tbl idx) = BitVec.ofFin sh := by
  ext n hn
  grind [shField, commandWord_getElem]

@[simp] theorem rndField_commandWord : rndField (commandWord op sh rnd tbl idx) = rnd := by
  ext n hn
  grind [rndField, commandWord_getElem]

@[simp] theorem tblField_commandWord : tblField (commandWord op sh rnd tbl idx) = tbl := by
  ext n hn
  grind [tblField, commandWord_getElem]

@[simp] theorem idxField_commandWord : idxField (commandWord op sh rnd tbl idx) = BitVec.ofFin idx := by
  ext n hn
  grind [idxField, commandWord_getElem]

end Fields

@[simp] theorem shiftOfField_ofFin (s : Fin 32) : shiftOfField (BitVec.ofFin s) = s := Fin.ofNat_val_eq_self s

@[simp] theorem indexOfField_ofFin (k : Fin 16) : indexOfField (BitVec.ofFin k) = k := Fin.ofNat_val_eq_self k

theorem ofFin_shiftOfField (sh : BitVec 5) : BitVec.ofFin (shiftOfField sh) = sh :=
  BitVec.eq_of_toNat_eq (Nat.mod_eq_of_lt sh.isLt)

theorem ofFin_indexOfField (idx : BitVec 4) : BitVec.ofFin (indexOfField idx) = idx :=
  BitVec.eq_of_toNat_eq (Nat.mod_eq_of_lt idx.isLt)

/-- R42, R47: a word whose reserved fields are 0 is the word with its own fields. -/
theorem commandWord_fields {c : Word} (hrsv1 : rsv1Field c = 0) (hrsv2 : rsv2Field c = 0) :
    commandWord (opField c) (shiftOfField (shField c)) (rndField c) (tblField c) (indexOfField (idxField c)) = c := by
  ext n hn
  have hbit1 : (rsv1Field c).getLsbD (n - 13) = false := by simp [hrsv1]
  have hbit2 : (rsv2Field c).getLsbD (n - 24) = false := by simp [hrsv2]
  rw [commandWord_getElem, ofFin_shiftOfField, ofFin_indexOfField]
  grind [opField, shField, rndField, tblField, idxField, rsv1Field, rsv2Field]

/-! ### The decoder and the encoder undo each other (R48, R49, R52) -/

/-- R49: a written word is decoded by the fields that were written. -/
theorem decode_commandWord (op : BitVec 8) (sh : Fin 32) (rnd tbl : BitVec 2) (idx : Fin 16) :
    decode (commandWord op sh rnd tbl idx) = decodeFields op (BitVec.ofFin sh) rnd tbl (BitVec.ofFin idx) := by
  obtain ⟨hrsv1, hrsv2⟩ := commandWord_reserved op sh rnd tbl idx
  simp [decode, hrsv1, hrsv2]

section Decoded
variable {op : BitVec 8} {sh : BitVec 5} {rnd tbl : BitVec 2} {idx : BitVec 4} {i j : Instr}

/-- R49, first case: only the word without SH, RND, TBL and IDX gives a plain command. -/
theorem encode_of_decodePlain (h : decodePlain i sh rnd tbl idx = some j) (hi : encode i = commandWord op 0 0 0 0) :
    encode j = commandWord op (shiftOfField sh) rnd tbl (indexOfField idx) := by
  rw [decodePlain, Option.ite_none_right_eq_some] at h
  obtain ⟨⟨rfl, rfl, rfl, rfl⟩, ⟨⟩⟩ := h
  exact hi

/-- R49, second case: RND names the round that was encoded. -/
theorem encode_of_decodeStep {f g k : Fin 32 → Instr}
    (h : decodeStep (f (shiftOfField sh)) (g (shiftOfField sh)) (k (shiftOfField sh)) rnd tbl idx = some j)
    (hf : ∀ s, encode (f s) = commandWord op s 1 0 0) (hg : ∀ s, encode (g s) = commandWord op s 2 0 0)
    (hk : ∀ s, encode (k s) = commandWord op s 3 0 0) :
    encode j = commandWord op (shiftOfField sh) rnd tbl (indexOfField idx) := by
  rw [decodeStep, Option.ite_none_right_eq_some] at h
  obtain ⟨⟨rfl, rfl⟩, h⟩ := h
  split_ifs at h with hrnd hrnd hrnd <;> cases h <;> subst hrnd
  · exact hf _
  · exact hg _
  · exact hk _

theorem encode_of_decodeLookup (h : decodeLookup sh rnd tbl idx = some j) :
    encode j = commandWord 0x20 (shiftOfField sh) rnd tbl (indexOfField idx) := by
  rw [decodeLookup, Option.ite_none_right_eq_some] at h
  obtain ⟨⟨rfl, rfl⟩, h⟩ := h
  split_ifs at h with htbl htbl htbl <;> cases h
  · rw [htbl]; rfl
  · rw [htbl.1]; rfl
  · rw [htbl.1]; rfl

theorem encode_of_decodeApply (h : decodeApply sh rnd tbl idx = some j) :
    encode j = commandWord 0x21 (shiftOfField sh) rnd tbl (indexOfField idx) := by
  rw [decodeApply, Option.ite_none_right_eq_some] at h
  obtain ⟨⟨rfl, rfl⟩, h⟩ := h
  split_ifs at h with htbl htbl htbl <;> cases h
  · rw [htbl]; rfl
  · rw [htbl.1, htbl.2]; rfl
  · rw [htbl.1, htbl.2]; rfl

theorem encode_of_decodeR1Step (h : decodeR1Step sh rnd tbl idx = some j) :
    encode j = commandWord 0x30 (shiftOfField sh) rnd tbl (indexOfField idx) := by
  rw [decodeR1Step, Option.ite_none_right_eq_some] at h
  obtain ⟨⟨rfl, rfl, rfl⟩, ⟨⟩⟩ := h
  rfl

/-- R49, R52: a command that the fields give is encoded with these fields. -/
theorem encode_of_decodeFields (h : decodeFields op sh rnd tbl idx = some j) :
    encode j = commandWord op (shiftOfField sh) rnd tbl (indexOfField idx) := by
  rw [decodeFields] at h
  iterate 5
    obtain ⟨rfl, h⟩ | ⟨-, h⟩ := ite_eq_iff.mp h
    · exact encode_of_decodePlain h rfl
  iterate 2
    obtain ⟨rfl, h⟩ | ⟨-, h⟩ := ite_eq_iff.mp h
    · exact encode_of_decodeStep h (fun _ => rfl) (fun _ => rfl) (fun _ => rfl)
  obtain ⟨rfl, h⟩ | ⟨-, h⟩ := ite_eq_iff.mp h
  · exact encode_of_decodeLookup h
  obtain ⟨rfl, h⟩ | ⟨-, h⟩ := ite_eq_iff.mp h
  · exact encode_of_decodeApply h
  obtain ⟨rfl, h⟩ | ⟨-, h⟩ := ite_eq_iff.mp h
  · exact encode_of_decodeR1Step h
  iterate 3
    obtain ⟨rfl, h⟩ | ⟨-, h⟩ := ite_eq_iff.mp h
    · exact encode_of_decodePlain h rfl
  cases h

end Decoded

/-- Settles O1: the fields that the encoder writes are the ones that the decoder reads, command by command. -/
theorem decodeOfEncodeIsTheCommand : Obligations.DecodeOfEncodeIsTheCommand := by
  unfold Obligations.DecodeOfEncodeIsTheCommand
  intro i hi
  cases i with
  | nop | compress | seed | capture | loadIv => exact decode_commandWord ..
  | r1All | a5Correct | d5Correct | ctApplyA5 | ctApplyD5 => exact decode_commandWord ..
  | fwdF s | fwdG s | fwdH s | invF s | invG s | invH s =>
    rw [encode, decode_commandWord]
    simp [decodeFields, decodeStep]
  | ctLookupR1 k | ctApplyR1 k | r1Step k =>
    rw [encode, decode_commandWord]
    simp [decodeFields, decodeLookup, decodeApply, decodeR1Step]
  | ctLookupA5 j | ctLookupD5 j =>
    have hj : j.val ≤ 4 := of_decide_eq_true hi
    rw [encode, decode_commandWord]
    simp [decodeFields, decodeLookup, hj]

/-- Settles O2: a legal word has reserved fields 0, and its other fields are those that its command is encoded with. -/
theorem encodeOfDecodeIsTheWord : Obligations.EncodeOfDecodeIsTheWord := by
  unfold Obligations.EncodeOfDecodeIsTheWord
  intro c i h
  refine ⟨decode_wf h, ?_⟩
  rw [decode] at h
  split_ifs at h with hrsv
  obtain ⟨hrsv1, hrsv2⟩ := not_or.mp hrsv
  rw [encode_of_decodeFields h, commandWord_fields (not_not.mp hrsv1) (not_not.mp hrsv2)]

/-- R48: the encoding of an ill-formed command is no command. -/
theorem decode_encode_of_not_wf {i : Instr} (h : i.wf = false) : decode (encode i) = none := by
  cases i with
  | ctLookupA5 j | ctLookupD5 j =>
    have hj : ¬ j.val ≤ 4 := of_decide_eq_false h
    rw [encode, decode_commandWord]
    simp [decodeFields, decodeLookup, hj]
  | _ => cases h

/-- Settles O36: the index is ill-formed, and exec takes the arm of R112. -/
theorem lookupA5D5IllegalIndex : Obligations.LookupA5D5IllegalIndex := by
  unfold Obligations.LookupA5D5IllegalIndex
  intro s j hj
  have hwf : decide (j.val ≤ 4) = false := decide_eq_false (by omega)
  have hlt : ¬ j.val < 5 := by omega
  exact ⟨decode_encode_of_not_wf hwf, decode_encode_of_not_wf hwf, dif_neg hlt, dif_neg hlt⟩

/-- Settles O4: each of the eight words is well-formed and written out. -/
theorem exampleWordsDecode : Obligations.ExampleWordsDecode := by
  unfold Obligations.ExampleWordsDecode
  decide

/-! ### The four groups of commands (R51) -/

/-- R51: a command belongs to one of the assembler's four groups; the last takes an index in 0..4. -/
inductive Grouped : Instr → Prop where
  | plain {i : Instr} (hi : i ∈ plainCommands) : Grouped i
  | shift {f : Fin 32 → Instr} (hf : f ∈ shiftCommands) (s : Fin 32) : Grouped (f s)
  | index {f : Fin 16 → Instr} (hf : f ∈ indexCommands) (k : Fin 16) : Grouped (f k)
  | triple {f : Fin 16 → Instr} (hf : f ∈ tripleCommands) (j : Fin 16) (hj : j.val ≤ 4) : Grouped (f j)

theorem mem_shiftCommands {f : Fin 32 → Instr} :
    f ∈ shiftCommands ↔ f = .fwdF ∨ f = .fwdG ∨ f = .fwdH ∨ f = .invF ∨ f = .invG ∨ f = .invH := by
  simp [shiftCommands]

theorem mem_indexCommands {f : Fin 16 → Instr} :
    f ∈ indexCommands ↔ f = .ctLookupR1 ∨ f = .ctApplyR1 ∨ f = .r1Step := by
  simp [indexCommands]

theorem mem_tripleCommands {f : Fin 16 → Instr} :
    f ∈ tripleCommands ↔ f = .ctLookupA5 ∨ f = .ctLookupD5 := by
  simp [tripleCommands]

theorem Grouped.of_wf {i : Instr} (h : i.wf = true) : Grouped i := by
  cases i with
  | nop | compress | seed | capture | loadIv => exact .plain (by decide)
  | r1All | a5Correct | d5Correct | ctApplyA5 | ctApplyD5 => exact .plain (by decide)
  | fwdF s | fwdG s | fwdH s | invF s | invG s | invH s => exact .shift (by simp [mem_shiftCommands]) s
  | ctLookupR1 k | ctApplyR1 k | r1Step k => exact .index (by simp [mem_indexCommands]) k
  | ctLookupA5 j | ctLookupD5 j => exact .triple (by simp [mem_tripleCommands]) j (of_decide_eq_true h)

/-- R51: the command `f x` is written with `f`'s mnemonic and the immediate `x`, which is in range up to `max`. -/
structure TakesImmediate (max : Nat) {n : Nat} [NeZero n] (f : Fin n → Instr) : Prop where
  wf        : ∀ x, x.val ≤ max → (f x).wf = true
  mnemonic  : ∀ x, (f x).mnemonic = (f 0).mnemonic
  immediate : ∀ x, (f x).immediate = some x.val

theorem takesImmediate_of_mem_shiftCommands {f : Fin 32 → Instr} (hf : f ∈ shiftCommands) : TakesImmediate 31 f := by
  rcases mem_shiftCommands.mp hf with rfl | rfl | rfl | rfl | rfl | rfl <;>
    exact ⟨fun _ _ => rfl, fun _ => rfl, fun _ => rfl⟩

theorem takesImmediate_of_mem_indexCommands {f : Fin 16 → Instr} (hf : f ∈ indexCommands) : TakesImmediate 15 f := by
  rcases mem_indexCommands.mp hf with rfl | rfl | rfl <;> exact ⟨fun _ _ => rfl, fun _ => rfl, fun _ => rfl⟩

theorem takesImmediate_of_mem_tripleCommands {f : Fin 16 → Instr} (hf : f ∈ tripleCommands) : TakesImmediate 4 f := by
  rcases mem_tripleCommands.mp hf with rfl | rfl <;>
    exact ⟨fun _ => decide_eq_true, fun _ => rfl, fun _ => rfl⟩

theorem plainCommands_wf : ∀ i ∈ plainCommands, i.wf = true := by decide

theorem plainCommands_immediate : ∀ i ∈ plainCommands, i.immediate = none := by decide

theorem Grouped.wf {i : Instr} (h : Grouped i) : i.wf = true := by
  cases h with
  | plain hi => exact plainCommands_wf _ hi
  | shift hf s => exact (takesImmediate_of_mem_shiftCommands hf).wf s (Nat.le_of_lt_succ s.isLt)
  | index hf k => exact (takesImmediate_of_mem_indexCommands hf).wf k (Nat.le_of_lt_succ k.isLt)
  | triple hf j hj => exact (takesImmediate_of_mem_tripleCommands hf).wf j hj

/-! ### The assembler (R51) -/

theorem assemble_plain : ∀ i ∈ plainCommands, assemble i.mnemonic none = some i := by decide

theorem assemble_shift {f : Fin 32 → Instr} (hf : f ∈ shiftCommands) (s : Fin 32) :
    assemble (f 0).mnemonic (some s.val) = some (f s) := by
  rcases mem_shiftCommands.mp hf with rfl | rfl | rfl | rfl | rfl | rfl <;>
    simp [assemble, shiftCommands, Instr.mnemonic]

theorem assemble_index {f : Fin 16 → Instr} (hf : f ∈ indexCommands) (k : Fin 16) :
    assemble (f 0).mnemonic (some k.val) = some (f k) := by
  have h32 : k.val < 32 := by omega
  rcases mem_indexCommands.mp hf with rfl | rfl | rfl <;>
    simp [assemble, shiftCommands, indexCommands, Instr.mnemonic, h32]

theorem assemble_triple {f : Fin 16 → Instr} (hf : f ∈ tripleCommands) (j : Fin 16) (hj : j.val ≤ 4) :
    assemble (f 0).mnemonic (some j.val) = some (f j) := by
  have h32 : j.val < 32 := by omega
  rcases mem_tripleCommands.mp hf with rfl | rfl <;>
    simp [assemble, shiftCommands, indexCommands, tripleCommands, Instr.mnemonic, hj, h32]

/-- R51: the line of a command assembles to it. -/
theorem assemble_line {i : Instr} (h : Grouped i) : assemble i.mnemonic i.immediate = some i := by
  cases h with
  | plain hi => rw [plainCommands_immediate _ hi, assemble_plain _ hi]
  | shift hf s =>
    have hline := takesImmediate_of_mem_shiftCommands hf
    rw [hline.mnemonic, hline.immediate, assemble_shift hf]
  | index hf k =>
    have hline := takesImmediate_of_mem_indexCommands hf
    rw [hline.mnemonic, hline.immediate, assemble_index hf]
  | triple hf j hj =>
    have hline := takesImmediate_of_mem_tripleCommands hf
    rw [hline.mnemonic, hline.immediate, assemble_triple hf j hj]

theorem mem_of_find_mnemonic {α : Type} {l : List α} {name : α → String} {m : String} {a : α}
    (h : l.find? (fun x => name x == m) = some a) : a ∈ l ∧ m = name a :=
  ⟨List.mem_of_find?_eq_some h, (beq_iff_eq.mp (List.find?_some (p := fun x => name x == m) h)).symm⟩

/-- R51: an immediate in range is not truncated. -/
theorem TakesImmediate.line_ofNat {max n x : Nat} [NeZero n] {f : Fin n → Instr} (h : TakesImmediate max f) (hx : x < n) :
    (f 0).mnemonic = (f (Fin.ofNat n x)).mnemonic ∧ some x = (f (Fin.ofNat n x)).immediate :=
  ⟨(h.mnemonic _).symm, by rw [h.immediate, Fin.val_ofNat, Nat.mod_eq_of_lt hx]⟩

/-- R51: what the assembler gives is the command of the line. -/
theorem line_of_assemble {m : String} {imm : Option Nat} {i : Instr} (h : assemble m imm = some i) :
    Grouped i ∧ m = i.mnemonic ∧ imm = i.immediate := by
  cases imm with
  | none =>
    obtain ⟨hi, rfl⟩ := mem_of_find_mnemonic h
    exact ⟨.plain hi, rfl, (plainCommands_immediate _ hi).symm⟩
  | some n =>
    rw [assemble, Option.ite_none_right_eq_some] at h
    obtain ⟨h32, h⟩ := h
    split at h
    next f hfind =>
      cases h
      obtain ⟨hf, rfl⟩ := mem_of_find_mnemonic hfind
      exact ⟨.shift hf _, (takesImmediate_of_mem_shiftCommands hf).line_ofNat h32⟩
    next =>
      rw [Option.ite_none_right_eq_some] at h
      obtain ⟨h16, h⟩ := h
      split at h
      next f hfind =>
        cases h
        obtain ⟨hf, rfl⟩ := mem_of_find_mnemonic hfind
        exact ⟨.index hf _, (takesImmediate_of_mem_indexCommands hf).line_ofNat h16⟩
      next =>
        rw [Option.ite_none_right_eq_some, Option.map_eq_some_iff] at h
        obtain ⟨h4, f, hfind, rfl⟩ := h
        obtain ⟨hf, rfl⟩ := mem_of_find_mnemonic hfind
        have hj : (Fin.ofNat 16 n).val ≤ 4 := (Nat.mod_le _ _).trans h4
        exact ⟨.triple hf _ hj, (takesImmediate_of_mem_tripleCommands hf).line_ofNat h16⟩

/-- Settles O5: each of the four groups of commands assembles from its own lines, and from no others. -/
theorem assemblerTakesExactlyTheLegalLines : Obligations.AssemblerTakesExactlyTheLegalLines := by
  unfold Obligations.AssemblerTakesExactlyTheLegalLines
  refine fun m imm i => ⟨fun h => ?_, ?_⟩
  · obtain ⟨hi, hm, himm⟩ := line_of_assemble h
    exact ⟨hi.wf, hm, himm⟩
  · rintro ⟨hi, rfl, rfl⟩
    exact assemble_line (.of_wf hi)

/-! ### The rows of the opcode map (R48) -/

/-- R48: the row of a command without an operand; every bit is fixed. -/
def plainRow (i : Instr) : OpcodeRow := ⟨i.mnemonic, encode i, 0xFFFFFFFF, none⟩
/-- R48: the row of a command with `#s`; SH is free. -/
def shiftRow (f : Fin 32 → Instr) : OpcodeRow := ⟨(f 0).mnemonic, encode (f 0), 0xFFFFE0FF, none⟩
/-- R48: the row of a command with `#k`; IDX is free. -/
def indexRow (f : Fin 16 → Instr) : OpcodeRow := ⟨(f 0).mnemonic, encode (f 0), 0xFF0FFFFF, none⟩
/-- R48: the row of a command with `#j`; IDX is free up to 4. -/
def tripleRow (f : Fin 16 → Instr) : OpcodeRow := ⟨(f 0).mnemonic, encode (f 0), 0xFF0FFFFF, some 4⟩

/-- R48, R51: the rows of the map are those of the assembler's four groups. -/
theorem opcodeRows_perm :
    opcodeRows.Perm (plainCommands.map plainRow ++ shiftCommands.map shiftRow ++ indexCommands.map indexRow ++
      tripleCommands.map tripleRow) := by
  decide

theorem mem_opcodeRows {r : OpcodeRow} :
    r ∈ opcodeRows ↔ (∃ i ∈ plainCommands, plainRow i = r) ∨ (∃ f ∈ shiftCommands, shiftRow f = r) ∨
      (∃ f ∈ indexCommands, indexRow f = r) ∨ ∃ f ∈ tripleCommands, tripleRow f = r := by
  simp only [opcodeRows_perm.mem_iff, List.mem_append, List.mem_map, or_assoc]

/-- R48: the mask of the rows with `#s` leaves out SH. -/
theorem shiftMask_getElem : ∀ n, (hn : n < 32) → (0xFFFFE0FF : Word)[n] = decide (n < 8 ∨ 13 ≤ n) := by decide

/-- R48: the mask of the rows with `#k` or `#j` leaves out IDX. -/
theorem indexMask_getElem : ∀ n, (hn : n < 32) → (0xFF0FFFFF : Word)[n] = decide (n < 20 ∨ 24 ≤ n) := by decide

section Masks
variable (op : BitVec 8) (sh : Fin 32) (rnd tbl : BitVec 2) (idx : Fin 16)

theorem commandWord_and_shiftMask :
    commandWord op sh rnd tbl idx &&& 0xFFFFE0FF = commandWord op 0 rnd tbl idx := by
  ext n hn
  grind [commandWord_getElem, shiftMask_getElem]

theorem commandWord_and_indexMask :
    commandWord op sh rnd tbl idx &&& 0xFF0FFFFF = commandWord op sh rnd tbl 0 := by
  ext n hn
  grind [commandWord_getElem, indexMask_getElem]

end Masks

/-- R48: a row whose mask leaves out SH fixes every other field. -/
theorem eq_commandWord_of_shiftMask {c : Word} {op : BitVec 8} {rnd : BitVec 2}
    (h : c &&& 0xFFFFE0FF = commandWord op 0 rnd 0 0) : c = commandWord op (shiftOfField (shField c)) rnd 0 0 := by
  ext n hn
  have hbit : (c &&& 0xFFFFE0FF)[n] = (commandWord op 0 rnd 0 0)[n] := by rw [h]
  rw [commandWord_getElem] at hbit ⊢
  rw [ofFin_shiftOfField]
  grind [shField, shiftMask_getElem]

/-- R48: a row whose mask leaves out IDX fixes every other field. -/
theorem eq_commandWord_of_indexMask {c : Word} {op : BitVec 8} {tbl : BitVec 2}
    (h : c &&& 0xFF0FFFFF = commandWord op 0 0 tbl 0) : c = commandWord op 0 0 tbl (indexOfField (idxField c)) := by
  ext n hn
  have hbit : (c &&& 0xFF0FFFFF)[n] = (commandWord op 0 0 tbl 0)[n] := by rw [h]
  rw [commandWord_getElem] at hbit ⊢
  rw [ofFin_indexOfField]
  grind [idxField, indexMask_getElem]

theorem shiftCommands_encode {f : Fin 32 → Instr} (hf : f ∈ shiftCommands) :
    ∃ op rnd, ∀ s, encode (f s) = commandWord op s rnd 0 0 := by
  rcases mem_shiftCommands.mp hf with rfl | rfl | rfl | rfl | rfl | rfl <;> exact ⟨_, _, fun _ => rfl⟩

theorem indexCommands_encode {f : Fin 16 → Instr} (hf : f ∈ indexCommands) :
    ∃ op tbl, ∀ k, encode (f k) = commandWord op 0 0 tbl k := by
  rcases mem_indexCommands.mp hf with rfl | rfl | rfl <;> exact ⟨_, _, fun _ => rfl⟩

theorem tripleCommands_encode {f : Fin 16 → Instr} (hf : f ∈ tripleCommands) :
    ∃ op tbl, ∀ j, encode (f j) = commandWord op 0 0 tbl j := by
  rcases mem_tripleCommands.mp hf with rfl | rfl <;> exact ⟨_, _, fun _ => rfl⟩

theorem holds_none {m : String} {p k c : Word} : (OpcodeRow.mk m p k none).holds c = true ↔ c &&& k = p := by
  simp [OpcodeRow.holds]

theorem holds_some {m : String} {p k c : Word} {n : Nat} :
    (OpcodeRow.mk m p k (some n)).holds c = true ↔ c &&& k = p ∧ (idxField c).toNat ≤ n := by
  simp [OpcodeRow.holds]

theorem plainRow_holds {i : Instr} {c : Word} : (plainRow i).holds c = true ↔ c = encode i := by
  rw [plainRow, holds_none, show (0xFFFFFFFF : Word) = BitVec.allOnes 32 from rfl, BitVec.and_allOnes]

theorem shiftRow_holds {f : Fin 32 → Instr} (hf : f ∈ shiftCommands) {c : Word} :
    (shiftRow f).holds c = true ↔ ∃ s, c = encode (f s) := by
  obtain ⟨op, rnd, he⟩ := shiftCommands_encode hf
  simp only [shiftRow, holds_none, he]
  refine ⟨fun h => ⟨_, eq_commandWord_of_shiftMask h⟩, ?_⟩
  rintro ⟨s, rfl⟩
  exact commandWord_and_shiftMask ..

theorem indexRow_holds {f : Fin 16 → Instr} (hf : f ∈ indexCommands) {c : Word} :
    (indexRow f).holds c = true ↔ ∃ k, c = encode (f k) := by
  obtain ⟨op, tbl, he⟩ := indexCommands_encode hf
  simp only [indexRow, holds_none, he]
  refine ⟨fun h => ⟨_, eq_commandWord_of_indexMask h⟩, ?_⟩
  rintro ⟨k, rfl⟩
  exact commandWord_and_indexMask ..

theorem tripleRow_holds {f : Fin 16 → Instr} (hf : f ∈ tripleCommands) {c : Word} :
    (tripleRow f).holds c = true ↔ ∃ j, j.val ≤ 4 ∧ c = encode (f j) := by
  obtain ⟨op, tbl, he⟩ := tripleCommands_encode hf
  simp only [tripleRow, holds_some, he]
  constructor
  · rintro ⟨h, hidx⟩
    exact ⟨_, (Nat.mod_le _ _).trans hidx, eq_commandWord_of_indexMask h⟩
  · rintro ⟨j, hj, rfl⟩
    exact ⟨commandWord_and_indexMask .., by simpa using hj⟩

/-- R48: a word that a row matches is the encoding of a command with the row's mnemonic. -/
theorem command_of_row {r : OpcodeRow} (hr : r ∈ opcodeRows) {c : Word} (h : r.holds c = true) :
    ∃ i, Grouped i ∧ r.mnemonic = i.mnemonic ∧ c = encode i := by
  obtain ⟨i, hi, rfl⟩ | ⟨f, hf, rfl⟩ | ⟨f, hf, rfl⟩ | ⟨f, hf, rfl⟩ := mem_opcodeRows.mp hr
  · exact ⟨i, .plain hi, rfl, plainRow_holds.mp h⟩
  · obtain ⟨s, hc⟩ := (shiftRow_holds hf).mp h
    exact ⟨f s, .shift hf s, ((takesImmediate_of_mem_shiftCommands hf).mnemonic s).symm, hc⟩
  · obtain ⟨k, hc⟩ := (indexRow_holds hf).mp h
    exact ⟨f k, .index hf k, ((takesImmediate_of_mem_indexCommands hf).mnemonic k).symm, hc⟩
  · obtain ⟨j, hj, hc⟩ := (tripleRow_holds hf).mp h
    exact ⟨f j, .triple hf j hj, ((takesImmediate_of_mem_tripleCommands hf).mnemonic j).symm, hc⟩

/-- R48: the encoding of a command is matched by the row of its group. -/
theorem row_of_command {i : Instr} (h : Grouped i) : ∃ r ∈ opcodeRows, r.holds (encode i) = true := by
  cases h with
  | plain hi => exact ⟨_, mem_opcodeRows.mpr (.inl ⟨_, hi, rfl⟩), plainRow_holds.mpr rfl⟩
  | shift hf s => exact ⟨_, mem_opcodeRows.mpr (.inr (.inl ⟨_, hf, rfl⟩)), (shiftRow_holds hf).mpr ⟨s, rfl⟩⟩
  | index hf k => exact ⟨_, mem_opcodeRows.mpr (.inr (.inr (.inl ⟨_, hf, rfl⟩))), (indexRow_holds hf).mpr ⟨k, rfl⟩⟩
  | triple hf j hj =>
    exact ⟨_, mem_opcodeRows.mpr (.inr (.inr (.inr ⟨_, hf, rfl⟩))), (tripleRow_holds hf).mpr ⟨j, hj, rfl⟩⟩

/-- R48, R49: the decoder gives the command of every row that matches. -/
theorem decode_of_row {r : OpcodeRow} (hr : r ∈ opcodeRows) {c : Word} (h : r.holds c = true) :
    ∃ i, decode c = some i ∧ r.mnemonic = i.mnemonic := by
  obtain ⟨i, hi, hm, rfl⟩ := command_of_row hr h
  exact ⟨i, decodeOfEncodeIsTheCommand i hi.wf, hm⟩

theorem opcodeRows_mnemonics_ne : opcodeRows.Pairwise fun r r' => r.mnemonic ≠ r'.mnemonic := by decide

/-- R48: rows that match the same word have the mnemonic of its command, and no two rows share a mnemonic. -/
theorem matching_rows_length_le_one (c : Word) : (opcodeRows.filter fun r => r.holds c).length ≤ 1 := by
  have hsame : ∀ r ∈ opcodeRows.filter fun r => r.holds c, (decode c).map Instr.mnemonic = some r.mnemonic := by
    intro r hr
    obtain ⟨hr, h⟩ := List.mem_filter.mp hr
    obtain ⟨i, hd, hm⟩ := decode_of_row hr h
    rw [hd, hm, Option.map_some]
  by_contra hlen
  have hne := List.pairwise_iff_getElem.mp (opcodeRows_mnemonics_ne.filter fun r => r.holds c) 0 1 (by omega) (by omega)
    Nat.zero_lt_one
  exact hne (Option.some.inj ((hsame _ (List.getElem_mem _)).symm.trans (hsame _ (List.getElem_mem _))))

/-- Settles O3: the rows are those of the four groups, and a row matches exactly the encodings of its commands. -/
theorem legalExactlyWhenOneRowMatches : Obligations.LegalExactlyWhenOneRowMatches := by
  unfold Obligations.LegalExactlyWhenOneRowMatches
  refine fun c => ⟨matching_rows_length_le_one c, ⟨fun h => ?_, ?_⟩, fun i hd r hr hrow => ?_⟩
  · obtain ⟨i, hd⟩ := Option.isSome_iff_exists.mp h
    obtain ⟨hwf, rfl⟩ := encodeOfDecodeIsTheWord c i hd
    exact row_of_command (.of_wf hwf)
  · rintro ⟨r, hr, h⟩
    obtain ⟨i, hd, -⟩ := decode_of_row hr h
    exact Option.isSome_of_eq_some hd
  · obtain ⟨j, hd', hm⟩ := decode_of_row hr hrow
    obtain rfl : i = j := Option.some.inj (hd.symm.trans hd')
    exact hm

end Sys2Proof.Machine
end

section
/-!
PROOFS. The statements of spec/41_state_and_compression.md: the combining functions (R54 to R56), the rounds and the compression
function (R59, R60), COMPRESS (R63), and the commands that move a chaining state (R62, R64 to R66).
-/

namespace Sys2Proof.Machine

/-! ### The combining functions (R54 to R56) -/

/-- R54: select. -/
theorem F_getElem (x y z : Word) (n : Fin 32) : (F x y z)[n] = if x[n] then y[n] else z[n] := by
  have hbit : (F x y z)[n] = (x[n] && y[n] || !x[n] && z[n]) := by simp [F]
  rw [hbit]
  cases x[n] <;> simp

/-- R55: majority. -/
theorem G_getElem_iff (x y z : Word) (n : Fin 32) : (G x y z)[n] = true ↔ 2 ≤ [x[n], y[n], z[n]].count true := by
  have hbit : (G x y z)[n] = (x[n] && y[n] || x[n] && z[n] || y[n] && z[n]) := by simp [G]
  rw [hbit]
  generalize x[n] = a, y[n] = b, z[n] = c
  revert a b c
  decide

/-- R56: parity. -/
theorem H_getElem_iff (x y z : Word) (n : Fin 32) :
    (H x y z)[n] = true ↔ [x[n], y[n], z[n]].count true % 2 = 1 := by
  have hbit : (H x y z)[n] = (x[n] ^^ y[n] ^^ z[n]) := by simp [H]
  rw [hbit]
  generalize x[n] = a, y[n] = b, z[n] = c
  revert a b c
  decide

/-- Settles O27: each function by its truth table on three bits. -/
theorem combiningFunctionsBitByBit : Obligations.CombiningFunctionsBitByBit :=
  fun x y z n => ⟨F_getElem x y z n, G_getElem_iff x y z n, H_getElem_iff x y z n⟩

/-! ### The rounds, four steps at a time (R59, R60) -/

/-- R12: the registers a, b, c, d as a register group. -/
def registers (X : Word × Word × Word × Word) : Vector Word 4 := #v[X.1, X.2.1, X.2.2.1, X.2.2.2]

theorem registers_getElem (S : Vector Word 4) : registers (S[0], S[1], S[2], S[3]) = S :=
  vec4_eta S

/-- R59: the steps 4q to 4q + 3. -/
def quarter (q : Fin 4) : List (Fin 16) := steps4.map fun n => ⟨4 * q.val + n.val, by omega⟩

/-- R59: the message word of step `k` of round `r`. -/
def stepWord (r : Round) (W : Vector Word 16) (k : Fin 16) : Word := W[(wordOrder r)[k]]

/-- R58, R59: the steps 4q to 4q + 3 of round `r`, with the shifts and the message words of the rule. -/
def quarterRound (r : Round) (W : Vector Word 16) (X : Word × Word × Word × Word) (q : Fin 4) :
    Word × Word × Word × Word :=
  fourSteps r (shiftOrder r)[0] (shiftOrder r)[1] (shiftOrder r)[2] (shiftOrder r)[3] X
    (stepWord r W ⟨4 * q.val, by omega⟩) (stepWord r W ⟨4 * q.val + 1, by omega⟩)
    (stepWord r W ⟨4 * q.val + 2, by omega⟩) (stepWord r W ⟨4 * q.val + 3, by omega⟩)

theorem steps16_eq_quarters : steps16 = steps4.flatMap quarter := by decide

/-- R59: the steps of a quarter update a, d, c, b in this order. -/
theorem foldl_updateStep_quarter (r : Round) (W : Vector Word 16) (X : Word × Word × Word × Word) (q : Fin 4) :
    (quarter q).foldl (updateStep r W) (registers X) = registers (quarterRound r W X q) := by
  fin_cases q <;> rfl

/-- R60: a round is its four quarters. -/
theorem runRound_registers (r : Round) (W : Vector Word 16) (X : Word × Word × Word × Word) :
    runRound r W (registers X) = registers (steps4.foldl (quarterRound r W) X) := by
  rw [runRound, steps16_eq_quarters, List.foldl_flatMap]
  exact List.foldl_hom registers fun X q => foldl_updateStep_quarter r W X q

theorem runRound_one (W : Vector Word 16) (X : Word × Word × Word × Word) :
    runRound .one W (registers X) = registers (fourByFour1 W X) := runRound_registers .one W X

theorem runRound_two (W : Vector Word 16) (X : Word × Word × Word × Word) :
    runRound .two W (registers X) = registers (fourByFour2 W X) := runRound_registers .two W X

theorem runRound_three (W : Vector Word 16) (X : Word × Word × Word × Word) :
    runRound .three W (registers X) = registers (fourByFour3 W X) := runRound_registers .three W X

/-- R60: the compression function, register by register. -/
theorem compress_eq (S : Vector Word 4) (W : Vector Word 16) :
    let X := fourByFour3 W (fourByFour2 W (fourByFour1 W (S[0], S[1], S[2], S[3])))
    compress S W = #v[S[0] + X.1, S[1] + X.2.1, S[2] + X.2.2.1, S[3] + X.2.2.2] := by
  intro X
  have hrounds : runRound .three W (runRound .two W (runRound .one W S)) = registers X := by
    rw [← runRound_three, ← runRound_two, ← runRound_one, registers_getElem]
  rw [compress, hrounds]
  rfl

/-! ### COMPRESS (R63) -/

/-- R63: the registers that COMPRESS reads are written exactly when the block in W is. -/
theorem compressReads_written_iff {s : State} :
    (∀ r ∈ compressReads, s.written r = true) ↔ ∀ j : Fin 16, s.W[j].written = true := by
  simp [compressReads, chainingRegs, messageRegs, mem_steps16, or_imp, forall_and]

theorem exec_compress_of_written {s : State} (h : ∀ j : Fin 16, s.W[j].written = true) :
    exec .compress s = .next (s.setChain (compress s.S s.block)) :=
  requireWritten_of_written (compressReads_written_iff.mpr h)

theorem exec_compress_of_unwritten {s : State} {j : Fin 16} (h : s.W[j].written = false) :
    FaultsUnwritten .compress s :=
  have hreads : ¬ ∀ r ∈ compressReads, s.written r = true := fun hall =>
    Bool.false_ne_true (h.symm.trans (compressReads_written_iff.mp hall j))
  ⟨_, (requireWritten_of_unwritten hreads).1⟩

/-- Settles O28: the sixteen steps of a round are four quarters, each of which updates a, d, c, b. -/
theorem compressRunsThreeRoundsAndAddsS : Obligations.CompressRunsThreeRoundsAndAddsS := by
  refine ⟨by decide, fun s => ⟨fun hw => ?_, ?_⟩⟩
  · rw [exec_compress_of_written hw, compress_eq]
    rfl
  · rintro ⟨j, hj⟩
    exact exec_compress_of_unwritten hj

/-- Settles O29: the 48 steps on this block, evaluated. -/
theorem compressOfAbcBlock : Obligations.CompressOfAbcBlock := by
  unfold Obligations.CompressOfAbcBlock
  decide +kernel

/-! ### The commands that move a chaining state (R62, R64 to R66) -/

/-- R23: S and I are never unwritten. -/
theorem chainingRegs_written (s : State) : ∀ r ∈ chainingRegs, s.written r = true := by
  simp [chainingRegs]

theorem initRegs_written (s : State) : ∀ r ∈ initRegs, s.written r = true := by
  simp [initRegs]

@[simp] theorem exec_nop (s : State) : exec .nop s = .next s := rfl

@[simp] theorem exec_seed (s : State) : exec .seed s = .next (s.setChain s.I) :=
  requireWritten_of_written (initRegs_written s)

@[simp] theorem exec_capture (s : State) : exec .capture s = .next (s.setInit s.S) :=
  requireWritten_of_written (chainingRegs_written s)

@[simp] theorem exec_loadIv (s : State) : exec .loadIv s = .next (s.setChain IV) := rfl

/-- R64, R65: after CAPTURE, SEED leaves S as it is. -/
theorem runCommands_capture_seed (s : State) : runCommands [.capture, .seed] s = .next (s.setInit s.S) := by
  have hsame : (s.setInit s.S).setChain (s.setInit s.S).I = s.setInit s.S := rfl
  simp only [runCommands, exec_capture, exec_seed, hsame]

/-- Settles O30: the four words, and each command's outcome; S and I are never unwritten. -/
theorem stateCommandsMoveChainingStates : Obligations.StateCommandsMoveChainingStates :=
  ⟨by decide, fun s => ⟨exec_nop s, exec_seed s, exec_capture s, exec_loadIv s, runCommands_capture_seed s⟩⟩

end Sys2Proof.Machine
end

section
/-!
PROOFS. The statements of spec/42_step_operators.md: the operators undo each other (R67 to R69), and FWD.* and INV.* write them
to RES (R70 to R75).
-/

namespace Sys2Proof.Machine

/-! ### The operators undo each other (R69) -/

/-- R69: INV finds the message word that FWD took. -/
@[simp] theorem inverseOp_forwardOp (r : Round) (a b c d m : Word) (s : Fin 32) :
    inverseOp r (forwardOp r a b c d m s) s a b c d = m := by
  rw [inverseOp, forwardOp, stepFn, rotr_rotl]
  ring

/-- R69: FWD of the word that INV finds is the desired value. -/
@[simp] theorem forwardOp_inverseOp (r : Round) (v : Word) (s : Fin 32) (a b c d : Word) :
    forwardOp r a b c d (inverseOp r v s a b c d) s = v := by
  have hsum : a + combine r b c d + inverseOp r v s a b c d + roundConstant r = rotr v s := by
    rw [inverseOp]
    ring
  rw [forwardOp, stepFn, hsum, rotl_rotr]

/-- Settles O31: the rotations cancel, and then the sum and the differences. -/
theorem operatorsAreMutualInverses : Obligations.OperatorsAreMutualInverses :=
  fun r s a b c d m v => ⟨rotr_rotl v s, inverseOp_forwardOp r a b c d m s, forwardOp_inverseOp r v s a b c d⟩

/-! ### The six commands: their words and their fault (section 2 of 42) -/

section Commands
variable {f : Fin 32 → Instr} (hf : f ∈ shiftCommands) (sh : Fin 32) (s : State)
include hf

/-- R42: the immediate stands in SH. -/
theorem shiftCommands_shField : (shField (encode (f sh))).toNat = sh.val := by
  obtain ⟨op, rnd, he⟩ := shiftCommands_encode hf
  rw [he, shField_commandWord, BitVec.toNat_ofFin]

/-- R26 (4): each of the six commands checks the five operands first. -/
theorem exec_shiftCommands : ∃ t, exec (f sh) s = requireWritten operatorRegs s t := by
  rcases mem_shiftCommands.mp hf with rfl | rfl | rfl | rfl | rfl | rfl <;> exact ⟨_, rfl⟩

theorem shiftCommands_faultsUnwritten (h : ∃ r ∈ operatorRegs, s.written r = false) : FaultsUnwritten (f sh) s := by
  obtain ⟨r, hr, hclear⟩ := h
  obtain ⟨t, hexec⟩ := exec_shiftCommands hf sh s
  have hsome : ¬ ∀ r ∈ operatorRegs, s.written r = true := fun hall =>
    Bool.false_ne_true (hclear.symm.trans (hall r hr))
  exact ⟨_, hexec.trans (requireWritten_of_unwritten hsome).1⟩

end Commands

/-! ### FWD.F, FWD.G and FWD.H (R70 to R72) -/

/-- R67: what FWD.* leaves when its operands are written. -/
theorem forwardCommand_of_written {s : State} (h : ∀ r ∈ operatorRegs, s.written r = true) (r : Round) (sh : Fin 32) :
    forwardCommand r sh s = .next (s.setRES
      ((s.OPA.val + combine r s.OPB.val s.OPC.val s.OPD.val + s.OPM.val + roundConstant r).rotateLeft sh.val)) := by
  rw [← forwardOp_eq]
  exact requireWritten_of_written h

/-- Settles O32: the three commands are one template, with the rounds' functions and constants. -/
theorem forwardCommandsWriteTheRotatedSum : Obligations.ForwardCommandsWriteTheRotatedSum := by
  unfold Obligations.ForwardCommandsWriteTheRotatedSum
  refine fun s sh => ⟨⟨commandWord_and_shiftMask .., commandWord_and_shiftMask .., commandWord_and_shiftMask ..⟩,
    fun i hi => ?_, fun hw => ⟨?_, forwardCommand_of_written hw .two sh, forwardCommand_of_written hw .three sh⟩⟩
  · obtain ⟨f, hf, rfl⟩ := (List.mem_map (f := fun f => f sh) (l := [Instr.fwdF, .fwdG, .fwdH])).mp hi
    have hf : f ∈ shiftCommands := List.mem_append_left [Instr.invF, .invG, .invH] hf
    exact ⟨shiftCommands_shField hf sh, shiftCommands_faultsUnwritten hf sh s⟩
  · have hrule := forwardCommand_of_written hw .one sh
    rw [roundConstant_one, add_zero] at hrule
    exact hrule

/-! ### INV.F, INV.G and INV.H (R73 to R75) -/

/-- R68: what INV.* leaves when its operands are written. -/
theorem inverseCommand_of_written {s : State} (h : ∀ r ∈ operatorRegs, s.written r = true) (r : Round) (sh : Fin 32) :
    inverseCommand r sh s = .next (s.setRES
      (s.OPM.val.rotateRight sh.val - s.OPA.val - combine r s.OPB.val s.OPC.val s.OPD.val - roundConstant r)) := by
  rw [← inverseOp_eq]
  exact requireWritten_of_written h

/-- R69: no other word is taken to the desired value. -/
theorem inverseOp_of_forwardOp_eq {r : Round} {a b c d m v : Word} {s : Fin 32} (h : forwardOp r a b c d m s = v) :
    inverseOp r v s a b c d = m := by
  rw [← h, inverseOp_forwardOp]

/-- Settles O33: the three commands are one template, and the word is unique since INV undoes FWD. -/
theorem inverseCommandsSolveForTheWord : Obligations.InverseCommandsSolveForTheWord := by
  unfold Obligations.InverseCommandsSolveForTheWord
  refine fun s sh => ⟨⟨commandWord_and_shiftMask .., commandWord_and_shiftMask .., commandWord_and_shiftMask ..⟩,
    fun i hi => ?_, fun hw => ⟨?_, inverseCommand_of_written hw .two sh, inverseCommand_of_written hw .three sh,
      fun _ _ => inverseOp_of_forwardOp_eq⟩⟩
  · obtain ⟨f, hf, rfl⟩ := (List.mem_map (f := fun f => f sh) (l := [Instr.invF, .invG, .invH])).mp hi
    have hf : f ∈ shiftCommands := List.mem_append_right [Instr.fwdF, .fwdG, .fwdH] hf
    exact ⟨shiftCommands_shField hf sh, shiftCommands_faultsUnwritten hf sh s⟩
  · have hrule := inverseCommand_of_written hw .one sh
    rw [roundConstant_one, sub_zero] at hrule
    exact hrule

end Sys2Proof.Machine
end

section
/-!
PROOFS. The statements of spec/43_constraint_tables.md on lookup and application: CT_LOOKUP.* (R79, R83 to R85), and what
applying an entry or a table leaves (R80 to R82), with CT_APPLY.* (R86 to R88).
-/

namespace Sys2Proof.Machine

/-! ### CT_LOOKUP.* (R83 to R85) -/

/-- R42: a command with IDX alone matches its row, and the index stands in IDX. -/
theorem commandWord_index (op : BitVec 8) (tbl : BitVec 2) (k : Fin 16) :
    commandWord op 0 0 tbl k &&& 0xFF0FFFFF = commandWord op 0 0 tbl 0 ∧
      (idxField (commandWord op 0 0 tbl k)).toNat = k.val :=
  ⟨commandWord_and_indexMask .., congrArg BitVec.toNat (idxField_commandWord ..)⟩

/-- Settles O34: the three masks of the entry, bit by bit. -/
theorem lookupR1ReturnsTheMasks : Obligations.LookupR1ReturnsTheMasks := by
  unfold Obligations.LookupR1ReturnsTheMasks
  intro s k
  obtain ⟨hword, hidx⟩ := commandWord_index 0x20 0 k
  exact ⟨_, _, _, hword, hidx, rfl, fun n =>
    ⟨condMask_getElem .forceZero _ n, condMask_getElem .forceOne _ n, condMask_getElem .equalToReference _ n⟩⟩

theorem exec_ctLookupA5 (s : State) {j : Fin 16} (h : j.val < 5) :
    exec (.ctLookupA5 j) s = .next (lookupTriple s.CTAB.a5[j.val] s) := dif_pos h

theorem exec_ctLookupD5 (s : State) {j : Fin 16} (h : j.val < 5) :
    exec (.ctLookupD5 j) s = .next (lookupTriple s.CTAB.d5[j.val] s) := dif_pos h

/-- R10: a number in the range of a field fits in a word. -/
theorem toNat_ofNat_fin {m : Nat} (x : Fin m) (hm : m ≤ 2 ^ 32) : (BitVec.ofNat 32 x.val).toNat = x.val :=
  (BitVec.toNat_ofNat x.val 32).trans (Nat.mod_eq_of_lt (x.isLt.trans_le hm))

/-- Settles O35: an index below 5 names a triple, and from 5 on the word is no command. -/
theorem lookupA5D5ReturnTheTriple : Obligations.LookupA5D5ReturnTheTriple := by
  unfold Obligations.LookupA5D5ReturnTheTriple
  refine ⟨fun j => ?_, ?_⟩
  · obtain ⟨hwordA, hidxA⟩ := commandWord_index 0x20 1 j
    obtain ⟨hwordD, hidxD⟩ := commandWord_index 0x20 2 j
    refine ⟨hwordA, hwordD, hidxA, hidxD, fun hj => ?_⟩
    have hwf : decide (j.val ≤ 4) = false := decide_eq_false (by omega)
    exact ⟨decode_encode_of_not_wf hwf, decode_encode_of_not_wf hwf⟩
  · intro s j code
    have hcode : ∀ c, (condCode c).toNat = code c := fun c => by cases c <;> rfl
    have htriple : ∀ p : RefRule, (BitVec.ofNat 32 p.bit.val).toNat = p.bit.val ∧ (condCode p.cond).toNat = code p.cond ∧
        (BitVec.ofNat 32 p.ref.val).toNat = p.ref.val := fun p =>
      ⟨toNat_ofNat_fin p.bit (by decide), hcode p.cond, toNat_ofNat_fin p.ref (by decide)⟩
    exact ⟨_, _, _, _, _, _, exec_ctLookupA5 s j.isLt, exec_ctLookupD5 s j.isLt, htriple _, htriple _⟩

/-! ### When a bit meets a condition (R76) -/

/-- Two words are equal when they agree at every bit index. -/
theorem word_ext {v w : Word} (h : ∀ n : Fin 32, v[n] = w[n]) : v = w :=
  BitVec.eq_of_getElem_eq fun i hi => h ⟨i, hi⟩

/-- R76: a condition sees only its own bit of the value. -/
theorem condMet_congr {c : BitCondition} {v w r : Word} {n : Fin 32} (h : v[n] = w[n]) :
    condMet c v r n ↔ condMet c w r n := by
  cases c <;> simp only [condMet, h]

/-- R76: a condition fixes its bit. -/
theorem condMet_unique {c : BitCondition} {v w r : Word} {n : Fin 32} (hv : condMet c v r n) (hw : condMet c w r n) :
    v[n] = w[n] := by
  cases c with
  | forceZero | forceOne | equalToReference => exact Eq.trans hv hw.symm

/-- R76: only an equalToReference condition sees the reference word. -/
theorem condMet_of_ne_equalToReference {c : BitCondition} {v r r' : Word} {n : Fin 32} (hc : c ≠ .equalToReference)
    (h : condMet c v r n) : condMet c v r' n := by
  cases c with
  | forceZero | forceOne => exact h
  | equalToReference => exact absurd rfl hc

/-! ### Applying a round-1 entry (R80) -/

/-- R8 (i): a bit of a well-formed entry has one condition, so it is in the mask of that one alone. -/
theorem condMask_getElem_of_distinct {e : List BitRule} (he : bitsDistinct e) {n : Fin 32} {c : BitCondition}
    (hp : ⟨n, c⟩ ∈ e) (d : BitCondition) : (condMask d e)[n] = decide (c = d) := by
  have hone : (⟨n, d⟩ : BitRule) ∈ e ↔ c = d :=
    ⟨fun hd => congrArg BitRule.cond (List.inj_on_of_nodup_map he hp hd rfl), fun h => h ▸ hp⟩
  rw [Bool.eq_iff_iff, condMask_getElem, hone, decide_eq_true_iff]

/-- R80: with no bit repeated, the entry is met. -/
theorem applyR1_met {e : List BitRule} (he : bitsDistinct e) (v r : Word) : entryMet e (applyR1 e v r) r := by
  rintro ⟨n, c⟩ hp
  have hmask := condMask_getElem_of_distinct he hp
  cases c with
  | forceZero | forceOne | equalToReference => simp [condMet, applyR1_getElem, hmask, -Fin.getElem_fin]

/-- R80: a bit that no pair names is kept. -/
theorem applyR1_getElem_of_free {e : List BitRule} {n : Fin 32} (h : ∀ c, ⟨n, c⟩ ∉ e) (v r : Word) :
    (applyR1 e v r)[n] = v[n] := by
  have hclear : ∀ c, (condMask c e)[n] = false := fun c =>
    Bool.eq_false_iff.mpr fun hc => h c ((condMask_getElem c e n).mp hc)
  simp [applyR1_getElem, hclear, -Fin.getElem_fin]

/-- R80: a value that meets the entry is kept. -/
theorem applyR1_of_met {e : List BitRule} {v r : Word} (h : entryMet e v r) : applyR1 e v r = v := by
  refine word_ext fun n => ?_
  have hbit : ∀ c, (condMask c e)[n] = true → condMet c v r n := fun c hc => h _ ((condMask_getElem c e n).mp hc)
  have hzero : (condMask .forceZero e)[n] = true → v[n] = false := hbit .forceZero
  have hone : (condMask .forceOne e)[n] = true → v[n] = true := hbit .forceOne
  have hequal : (condMask .equalToReference e)[n] = true → v[n] = r[n] := hbit .equalToReference
  rw [applyR1_getElem]
  grind

/-- R79: a mask depends on which pairs the entry has, not on their order. -/
theorem condMask_perm {e e' : List BitRule} (h : e.Perm e') (c : BitCondition) : condMask c e' = condMask c e := by
  refine word_ext fun n => Bool.eq_iff_iff.mpr ?_
  rw [condMask_getElem, condMask_getElem, h.mem_iff]

theorem applyR1_perm {e e' : List BitRule} (h : e.Perm e') (v r : Word) : applyR1 e' v r = applyR1 e v r := by
  simp only [applyR1, zeroMask, oneMask, equalMask, condMask_perm h]

/-! ### Applying a round-2 table (R81) -/

section Triples
variable (R : Vector Word 4) (v : Word)

theorem applyTriple_met (p : RefRule) : condMet p.cond (applyTriple R v p) R[p.ref] p.bit := by
  have hbit := applyTriple_getElem R v p p.bit
  obtain ⟨b, c, f⟩ := p
  cases c <;> simpa only [condMet, if_true] using hbit

theorem applyTriple_getElem_of_ne {p : RefRule} {n : Fin 32} (h : p.bit ≠ n) : (applyTriple R v p)[n] = v[n] :=
  (applyTriple_getElem R v p n).trans (if_neg h.symm)

/-- R81: a bit that no triple names is kept. -/
theorem foldl_applyTriple_getElem_of_free {ps : List RefRule} {n : Fin 32} (h : ∀ p ∈ ps, p.bit ≠ n) :
    (ps.foldl (applyTriple R) v)[n] = v[n] := by
  induction ps generalizing v with
  | nil => rfl
  | cons p ps ih =>
    obtain ⟨hp, hps⟩ := List.forall_mem_cons.mp h
    exact (ih (applyTriple R v p) hps).trans (applyTriple_getElem_of_ne R v hp)

/-- R81: with no bit repeated, no triple undoes what one before it forced. -/
theorem foldl_applyTriple_met {ps : List RefRule} (h : (ps.map (·.bit)).Nodup) :
    ∀ p ∈ ps, condMet p.cond (ps.foldl (applyTriple R) v) R[p.ref] p.bit := by
  induction ps generalizing v with
  | nil => exact fun p hp => nomatch hp
  | cons p ps ih =>
    obtain ⟨hp, hps⟩ := List.nodup_cons.mp h
    refine List.forall_mem_cons.mpr ⟨?_, ih (applyTriple R v p) hps⟩
    have hkept : (ps.foldl (applyTriple R) (applyTriple R v p))[p.bit] = (applyTriple R v p)[p.bit] :=
      foldl_applyTriple_getElem_of_free R _ fun q hq hbit => hp (List.mem_map.mpr ⟨q, hq, hbit⟩)
    exact (condMet_congr hkept).mpr (applyTriple_met R v p)

/-- R81: a value that meets a triple is kept. -/
theorem applyTriple_of_met {p : RefRule} (h : condMet p.cond v R[p.ref] p.bit) : applyTriple R v p = v := by
  refine word_ext fun n => ?_
  by_cases hn : p.bit = n
  · subst hn
    exact condMet_unique (applyTriple_met R v p) h
  · exact applyTriple_getElem_of_ne R v hn

theorem foldl_applyTriple_of_met {ps : List RefRule} (h : ∀ p ∈ ps, condMet p.cond v R[p.ref] p.bit) :
    ps.foldl (applyTriple R) v = v := by
  induction ps with
  | nil => rfl
  | cons p ps ih =>
    obtain ⟨hp, hps⟩ := List.forall_mem_cons.mp h
    rw [List.foldl_cons, applyTriple_of_met R v hp, ih hps]

/-- R82: triples of two different bits may be applied in either order: each bit is forced by its own triple. -/
theorem applyTriple_comm {p q : RefRule} (h : p.bit ≠ q.bit) :
    applyTriple R (applyTriple R v p) q = applyTriple R (applyTriple R v q) p := by
  refine word_ext fun n => ?_
  by_cases hp : p.bit = n
  · subst hp
    rw [applyTriple_getElem_of_ne R _ h.symm]
    exact condMet_unique (applyTriple_met R _ p) (applyTriple_met R _ p)
  · rw [applyTriple_getElem_of_ne R _ hp]
    by_cases hq : q.bit = n
    · subst hq
      exact condMet_unique (applyTriple_met R _ q) (applyTriple_met R _ q)
    · rw [applyTriple_getElem_of_ne R _ hq, applyTriple_getElem_of_ne R _ hq, applyTriple_getElem_of_ne R _ hp]

/-- R82: with no bit repeated, the order of the triples does not matter. -/
theorem foldl_applyTriple_perm {ps qs : List RefRule} (hps : (ps.map (·.bit)).Nodup) (h : ps.Perm qs) :
    qs.foldl (applyTriple R) v = ps.foldl (applyTriple R) v := by
  refine (h.foldl_eq' (fun p hp q hq w => ?_) v).symm
  by_cases hbit : p.bit = q.bit
  · rw [List.inj_on_of_nodup_map hps hp hq hbit]
  · exact applyTriple_comm R w hbit

/-- R81: with no bit repeated, the table is met. -/
theorem applyR2_met {T : Vector RefRule 5} (hT : refBitsDistinct T) : tableMet T (applyR2 T v R) R :=
  foldl_applyTriple_met R v hT

theorem applyR2_getElem_of_free {T : Vector RefRule 5} {n : Fin 32} (h : ∀ p ∈ T.toList, p.bit ≠ n) :
    (applyR2 T v R)[n] = v[n] := foldl_applyTriple_getElem_of_free R v h

end Triples

/-- Settles O39: the masks do not depend on the order, and triples of different bits commute; a value that meets an entry or a
table is kept by it. -/
theorem applicationOrderFreeAndIdempotent : Obligations.ApplicationOrderFreeAndIdempotent := by
  unfold Obligations.ApplicationOrderFreeAndIdempotent
  exact ⟨fun e e' v r he hperm => ⟨applyR1_perm hperm v r, applyR1_of_met (applyR1_met he v r)⟩,
    fun T T' v R hT hperm =>
      ⟨foldl_applyTriple_perm R v hT hperm, foldl_applyTriple_of_met R _ (applyR2_met R v hT)⟩⟩

/-! ### CT_APPLY.* (R86 to R88) -/

/-- R26 (4): a command that checks a register whose mark is clear faults. -/
theorem faultsUnwritten_of_check {i : Instr} {s t : State} {rs : List Reg} (hexec : exec i s = requireWritten rs s t)
    (h : ∃ r ∈ rs, s.written r = false) : FaultsUnwritten i s := by
  obtain ⟨r, hr, hclear⟩ := h
  have hsome : ¬ ∀ r ∈ rs, s.written r = true := fun hall => Bool.false_ne_true (hclear.symm.trans (hall r hr))
  exact ⟨_, hexec.trans (requireWritten_of_unwritten hsome).1⟩

/-- R8 (i): the entries of well-formed tables repeat no bit. -/
theorem bitsDistinct_of_wf {c : CTab} (h : c.wf) (k : Fin 16) : bitsDistinct c.r1[k] :=
  have ⟨hr1, _, _⟩ := h
  hr1 _ (Vector.mem_toList_iff.mpr (Vector.getElem_mem k.isLt))

/-- Settles O37: the command writes `applyR1` of the entry to RES, once OPM and OPB are written. -/
theorem applyR1ForcesTheEntryBits : Obligations.ApplyR1ForcesTheEntryBits := by
  unfold Obligations.ApplyR1ForcesTheEntryBits
  intro s k
  obtain ⟨hword, hidx⟩ := commandWord_index 0x21 0 k
  refine ⟨hword, hidx, fun hwf hM hB => ?_, fun hclear => ?_⟩
  · have hreads : ∀ r ∈ applyR1Reads, s.written r = true := by simp [applyR1Reads, hM, hB]
    exact ⟨_, requireWritten_of_written hreads, applyR1_met (bitsDistinct_of_wf hwf k) _ _,
      fun n hfree => applyR1_getElem_of_free hfree _ _⟩
  · exact faultsUnwritten_of_check (i := .ctApplyR1 k) (rs := applyR1Reads) rfl (by simpa [applyR1Reads] using hclear)

/-- R87, R88: what CT_APPLY.A5 or CT_APPLY.D5 leaves, for its table without a repeated bit. -/
theorem applyCommand_forces {s : State} {T : Vector RefRule 5} (hT : refBitsDistinct T)
    (h : ∀ r ∈ operatorRegs, s.written r = true) :
    ∃ v : Word, applyCommand T s = .next (s.setRES v) ∧ tableMet T v s.operands ∧
      ∀ n : Fin 32, (∀ p ∈ T.toList, p.bit ≠ n) → v[n] = s.OPM.val[n] :=
  ⟨_, requireWritten_of_written h, applyR2_met s.operands s.OPM.val hT,
    fun _ hfree => applyR2_getElem_of_free s.operands s.OPM.val hfree⟩

/-- Settles O38: both commands are one template, with the table a5 or d5. -/
theorem applyA5D5ForceTheTripleBits : Obligations.ApplyA5D5ForceTheTripleBits := by
  unfold Obligations.ApplyA5D5ForceTheTripleBits
  refine ⟨by decide, by decide, fun s => ⟨fun hwf hw => ?_, fun hclear => ?_⟩⟩
  · obtain ⟨-, hA5, hD5⟩ := hwf
    exact ⟨applyCommand_forces hA5 hw, applyCommand_forces hD5 hw⟩
  · exact ⟨faultsUnwritten_of_check (i := .ctApplyA5) (rs := operatorRegs) rfl hclear,
      faultsUnwritten_of_check (i := .ctApplyD5) (rs := operatorRegs) rfl hclear⟩

end Sys2Proof.Machine
end

section
/-!
PROOFS. The statements of spec/43_constraint_tables.md on the modification commands: R1_STEP (R89), R1_ALL (R90), A5_CORRECT
(R91), D5_CORRECT (R92), and what SEED and the last three guarantee of the compression (R95).
-/

namespace Sys2Proof.Machine

/-! ### R1_STEP (R89) -/

/-- R59: the orders of the rule, step by step. -/
theorem getElem_eq_target : ∀ k : Fin 16, ([0, 3, 2, 1] : List (Fin 4))[k.val % 4]! = target k := by decide

theorem getElem_eq_shiftOf_one : ∀ k : Fin 16, ([3, 7, 11, 19] : List (Fin 32))[k.val % 4]! = shiftOf .one k := by decide

/-- R89: S is never unwritten, so the check is that of `W[k]`. -/
theorem r1StepReads_written {s : State} {k : Fin 16} (h : s.W[k].written = true) :
    ∀ r ∈ r1StepReads k, s.written r = true := by
  simpa [r1StepReads, chainingRegs, or_imp, forall_and] using h

/-- Settles O40: the word that the inverse operator finds makes the step give the corrected value; a value that meets the entry
is not corrected. -/
theorem r1StepCorrectsOneRegister : Obligations.R1StepCorrectsOneRegister := by
  unfold Obligations.R1StepCorrectsOneRegister
  intro s k
  obtain ⟨hword, hidx⟩ := commandWord_index 0x30 0 k
  refine ⟨hword, hidx, fun hclear => ?_, fun hw => ?_⟩
  · exact faultsUnwritten_of_check (i := .r1Step k) rfl ⟨.w k, List.mem_append_right _ (List.mem_singleton_self _), hclear⟩
  · simp only [getElem_eq_target, getElem_eq_shiftOf_one]
    refine ⟨_, forwardOp_inverseOp .., fun hmet => ?_, requireWritten_of_written (r1StepReads_written hw)⟩
    rw [applyR1_of_met hmet, inverseOp_forwardOp]
    exact ⟨rfl, rfl⟩

/-! ### Steps along a chain of values (R59, R60) -/

/-- R59: the registers after the steps `ks`, each of which wrote its value of `c`. -/
def chainAfter (c : Fin 16 → Word) (ks : List (Fin 16)) (X : Vector Word 4) : Vector Word 4 :=
  ks.foldl (fun X k => X.set (target k) (c k)) X

@[simp] theorem chainAfter_nil (c : Fin 16 → Word) (X : Vector Word 4) : chainAfter c [] X = X := rfl

@[simp] theorem chainAfter_cons (c : Fin 16 → Word) (k : Fin 16) (ks : List (Fin 16)) (X : Vector Word 4) :
    chainAfter c (k :: ks) X = chainAfter c ks (X.set (target k) (c k)) := rfl

theorem chainAfter_append (c : Fin 16 → Word) (ks ls : List (Fin 16)) (X : Vector Word 4) :
    chainAfter c (ks ++ ls) X = chainAfter c ls (chainAfter c ks X) := List.foldl_append

theorem chainAfter_congr {c c' : Fin 16 → Word} {ks : List (Fin 16)} (h : ∀ k ∈ ks, c' k = c k) (X : Vector Word 4) :
    chainAfter c' ks X = chainAfter c ks X := by
  induction ks generalizing X with
  | nil => rfl
  | cons k ks ih =>
    obtain ⟨hk, hks⟩ := List.forall_mem_cons.mp h
    rw [chainAfter_cons, chainAfter_cons, hk, ih hks]

/-- R59: a quarter writes all four registers. -/
theorem chainAfter_quarter (c : Fin 16 → Word) (q : Fin 4) (X : Vector Word 4) :
    chainAfter c (quarter q) X =
      #v[c ⟨4 * q.val, by omega⟩, c ⟨4 * q.val + 3, by omega⟩, c ⟨4 * q.val + 2, by omega⟩,
        c ⟨4 * q.val + 1, by omega⟩] := by
  rw [← registers_getElem X]
  fin_cases q <;> rfl

/-- R59, R60: the registers after round 1 along the chain are those of its last quarter. -/
theorem chainAfter_steps16 (c : Fin 16 → Word) (X : Vector Word 4) :
    chainAfter c steps16 X = #v[c 12, c 15, c 14, c 13] := by
  have hlast : steps16 = steps16.take 12 ++ quarter 3 := by decide
  rw [hlast, chainAfter_append, chainAfter_quarter]
  rfl

/-- R77: operand b of step `k` is the register written before it, or b0. -/
theorem chainAfter_operandB (c : Fin 16 → Word) (X : Vector Word 4) (k : Fin 16) :
    (chainAfter c (steps16.take k) X)[target k + 1] = chainReference X[1] c k := by
  by_cases hk : k = 0
  · subst hk
    rfl
  · have hbefore : ∀ k : Fin 16, k ≠ 0 →
        steps16.take k = steps16.take (k - 1 : Fin 16) ++ [k - 1] ∧ target k + 1 = target (k - 1) := by decide
    obtain ⟨htake, htarget⟩ := hbefore k hk
    simp only [htake, htarget, chainAfter_append, chainAfter_cons, chainAfter_nil, set_getElem_fin, if_true,
      chainReference, if_neg hk]

section Steps
variable {r : Round} {W W' : Vector Word 16} {c c' : Fin 16 → Word} {X : Vector Word 4}

/-- R58, R59: what step `k` writes. -/
theorem updateStep_getElem (r : Round) (W : Vector Word 16) (X : Vector Word 4) (k : Fin 16) :
    (updateStep r W X k)[target k] =
      forwardOp r X[target k] X[target k + 1] X[target k + 2] X[target k + 3] W[(wordOrder r)[k]] (shiftOf r k) := by
  rw [updateStep, set_getElem_fin, if_pos rfl]
  rfl

/-- R59: round 1 takes the words in order. -/
theorem updateStep_one_getElem (W : Vector Word 16) (X : Vector Word 4) (k : Fin 16) :
    (updateStep .one W X k)[target k] =
      forwardOp .one X[target k] X[target k + 1] X[target k + 2] X[target k + 3] W[k] (shiftOf .one k) := by
  simp only [updateStep_getElem, wordOrder_one]

/-- R59: a step writes its value to its own register. -/
theorem updateStep_eq (r : Round) (W : Vector Word 16) (X : Vector Word 4) (k : Fin 16) :
    updateStep r W X k = X.set (target k) (updateStep r W X k)[target k] := by
  simp [updateStep]

/-- R60: the first step writes its value of the chain, and the others go on along it. -/
theorem stepValues_cons_eq_map {k : Fin 16} {ks : List (Fin 16)} :
    stepValues r W (k :: ks) X = (k :: ks).map c ↔
      (updateStep r W X k)[target k] = c k ∧ stepValues r W ks (X.set (target k) (c k)) = ks.map c := by
  rw [stepValues, List.map_cons, List.cons.injEq]
  refine and_congr_right fun hk => ?_
  rw [updateStep_eq r W X k, hk]

/-- R60: the first values are those of the first steps. -/
theorem stepValues_take (n : Nat) (ks : List (Fin 16)) : (stepValues r W ks X).take n = stepValues r W (ks.take n) X := by
  induction ks generalizing X n with
  | nil => simp [stepValues]
  | cons k ks ih =>
    cases n with
    | zero => rfl
    | succ n => simp [stepValues, ih]

theorem stepValues_append_eq_map {ks ls : List (Fin 16)} :
    stepValues r W (ks ++ ls) X = (ks ++ ls).map c ↔
      stepValues r W ks X = ks.map c ∧ stepValues r W ls (chainAfter c ks X) = ls.map c := by
  induction ks generalizing X with
  | nil => simp [stepValues]
  | cons k ks ih =>
    rw [List.cons_append, stepValues_cons_eq_map, stepValues_cons_eq_map, ih, chainAfter_cons, and_assoc]

/-- R60: steps along a chain leave its registers. -/
theorem foldl_updateStep_of_stepValues {ks : List (Fin 16)} (h : stepValues r W ks X = ks.map c) :
    ks.foldl (updateStep r W) X = chainAfter c ks X := by
  induction ks generalizing X with
  | nil => rfl
  | cons k ks ih =>
    obtain ⟨hk, hks⟩ := stepValues_cons_eq_map.mp h
    rw [List.foldl_cons, updateStep_eq, hk, chainAfter_cons, ih hks]

/-- R60: the steps `ks` of round 1 see only their own words and their own values of the chain. -/
theorem stepValues_one_congr {ks : List (Fin 16)} (hW : ∀ k ∈ ks, W'[k] = W[k]) (hc : ∀ k ∈ ks, c' k = c k)
    (h : stepValues .one W ks X = ks.map c) : stepValues .one W' ks X = ks.map c' := by
  induction ks generalizing X with
  | nil => rfl
  | cons k ks ih =>
    obtain ⟨hk, hks⟩ := stepValues_cons_eq_map.mp h
    obtain ⟨hWk, hWks⟩ := List.forall_mem_cons.mp hW
    obtain ⟨hck, hcks⟩ := List.forall_mem_cons.mp hc
    have hstep : updateStep .one W' X k = updateStep .one W X k := by
      simp only [updateStep, wordOrder_one, hWk]
    exact stepValues_cons_eq_map.mpr ⟨by rw [hstep, hk, hck], by rw [hck]; exact ih hWks hcks hks⟩

end Steps

/-! ### R1_ALL (R90) -/

/-- R89: the word of a round-1 step makes the step write `CH[k]`. -/
theorem updateStep_r1StepOn {s : State} {W : Vector Word 16} {k : Fin 16} (hW : W[k] = (r1StepOn s k).msg k) :
    (updateStep .one W s.S k)[target k] = (r1StepOn s k).chain k := by
  rw [updateStep_one_getElem, hW, State.msg, State.chain,
    (r1StepOn_files s k).2.1, (r1StepOn_files s k).2.2, set_getElem_fin, set_getElem_fin, if_pos rfl, if_pos rfl]
  exact forwardOp_inverseOp ..

theorem r1StepOn_S (s : State) (k : Fin 16) : (r1StepOn s k).S = s.S.set (target k) ((r1StepOn s k).chain k) := by
  rw [r1StepOn_chain]
  simp [(r1StepOn_files s k).1]

/-- R90: the steps after step `k` leave its word and its value of the chain. -/
theorem foldl_r1StepOn_head {k : Fin 16} {ks : List (Fin 16)} (hk : k ∉ ks) (s : State) :
    ((k :: ks).foldl r1StepOn s).W[k] = (r1StepOn s k).W[k] ∧ ((k :: ks).foldl r1StepOn s).CH[k] = (r1StepOn s k).CH[k] :=
  foldl_r1StepOn_notMem ks (r1StepOn s k) hk

/-- R90: round-1 steps leave in S the registers of their chain. -/
theorem foldl_r1StepOn_S {ks : List (Fin 16)} (hks : ks.Nodup) (s : State) :
    (ks.foldl r1StepOn s).S = chainAfter (ks.foldl r1StepOn s).chain ks s.S := by
  induction ks generalizing s with
  | nil => rfl
  | cons k ks ih =>
    obtain ⟨hk, hks⟩ := List.nodup_cons.mp hks
    have hchain : ((k :: ks).foldl r1StepOn s).chain k = (r1StepOn s k).chain k :=
      congrArg Marked.val (foldl_r1StepOn_head hk s).2
    rw [chainAfter_cons, hchain, ← r1StepOn_S]
    exact ih hks (r1StepOn s k)

/-- R90: round-1 steps leave words with which round 1 goes along the chain. -/
theorem stepValues_foldl_r1StepOn {ks : List (Fin 16)} (hks : ks.Nodup) {s : State} {W : Vector Word 16}
    (hW : ∀ k ∈ ks, W[k] = (ks.foldl r1StepOn s).msg k) :
    stepValues .one W ks s.S = ks.map (ks.foldl r1StepOn s).chain := by
  induction ks generalizing s with
  | nil => rfl
  | cons k ks ih =>
    obtain ⟨hk, hks⟩ := List.nodup_cons.mp hks
    obtain ⟨hWk, hWks⟩ := List.forall_mem_cons.mp hW
    obtain ⟨hword, hvalue⟩ := foldl_r1StepOn_head hk s
    have hchain : ((k :: ks).foldl r1StepOn s).chain k = (r1StepOn s k).chain k := congrArg Marked.val hvalue
    refine stepValues_cons_eq_map.mpr ⟨?_, ?_⟩
    · rw [hchain]
      exact updateStep_r1StepOn (hWk.trans (congrArg Marked.val hword))
    · rw [hchain, ← r1StepOn_S]
      exact ih hks hWks

/-- R90: the value of step `k`, which comes after the steps `pre` and before others, meets its entry, with operand b as
reference. -/
theorem foldl_r1StepOn_met {s : State} (hwf : s.CTAB.wf) {pre post : List (Fin 16)} {k : Fin 16}
    (hnodup : (pre ++ k :: post).Nodup) {t : State} (ht : t = (pre ++ k :: post).foldl r1StepOn s) :
    entryMet s.CTAB.r1[k] (t.chain k) (chainAfter t.chain pre s.S)[target k + 1] := by
  obtain ⟨hpre, hpost, hdisjoint⟩ := List.nodup_append.mp hnodup
  obtain ⟨hk, -⟩ := List.nodup_cons.mp hpost
  rw [List.foldl_append] at ht
  have hchain : t.chain k = (r1StepOn (pre.foldl r1StepOn s) k).chain k := by
    rw [ht]
    exact congrArg Marked.val (foldl_r1StepOn_head hk _).2
  have hbefore : chainAfter t.chain pre s.S = (pre.foldl r1StepOn s).S := by
    rw [foldl_r1StepOn_S hpre, ht]
    exact chainAfter_congr (fun j hj => congrArg Marked.val
      (foldl_r1StepOn_notMem _ _ fun hmem => hdisjoint j hj j hmem rfl).2) _
  rw [hchain, hbefore, r1StepOn_chain, (r1StepOn_files _ k).1, set_getElem_fin, if_pos rfl,
    (foldl_r1StepOn_agree pre s).CTAB]
  exact applyR1_met (bitsDistinct_of_wf hwf k) _ _

theorem steps16_nodup : steps16.Nodup := by decide

theorem steps16_split (k : Fin 16) : steps16 = steps16.take k ++ k :: steps16.drop (k + 1) := by revert k; decide

/-- R90: what R1_ALL leaves. -/
theorem exec_r1All_next {s t : State} (h : exec .r1All s = .next t) : t = steps16.foldl r1StepOn s :=
  (requireWritten_next.mp h).2

/-- R90: after R1_ALL every word and every value of the chain is written. -/
theorem r1All_written (s : State) (k : Fin 16) :
    (steps16.foldl r1StepOn s).W[k].written = true ∧ (steps16.foldl r1StepOn s).CH[k].written = true := by
  have hk : k ∉ steps16.drop (k + 1) := by revert k; decide
  rw [steps16_split k, List.foldl_append, (foldl_r1StepOn_head hk _).1, (foldl_r1StepOn_head hk _).2]
  exact r1StepOn_written _ k

theorem round1Values_r1All (s : State) :
    round1Values s.S (steps16.foldl r1StepOn s).block = steps16.map (steps16.foldl r1StepOn s).chain :=
  stepValues_foldl_r1StepOn steps16_nodup fun k _ => vec16_getElem _ k

/-- Settles O42: each step's word makes round 1 write `CH[k]`, and each value was corrected when its step ran. -/
theorem r1AllMakesEveryRound1ConditionHold : Obligations.R1AllMakesEveryRound1ConditionHold := by
  unfold Obligations.R1AllMakesEveryRound1ConditionHold
  intro s t hwf h
  obtain rfl := exec_r1All_next h
  refine ⟨round1Values_r1All s, fun k => ?_, ?_, r1All_written s⟩
  · rw [← chainAfter_operandB]
    exact foldl_r1StepOn_met hwf (steps16_split k ▸ steps16_nodup) (congrArg (List.foldl r1StepOn s) (steps16_split k))
  · exact (foldl_r1StepOn_S steps16_nodup s).trans (chainAfter_steps16 _ _)

/-! ### A5_CORRECT and D5_CORRECT (R91, R92) -/

/-- A state that agrees outside the files is known by the three files. -/
theorem AgreeOutsideFiles.eq_withFiles {s t : State} (h : AgreeOutsideFiles s t) :
    t = { s with S := t.S, W := t.W, CH := t.CH } := by
  obtain ⟨hI, hOPA, hOPB, hOPC, hOPD, hOPM, hRES, hLK0, hLK1, hLK2, hCMD, hILL, hCTAB, hdriver⟩ := h
  simp only [← hI, ← hOPA, ← hOPB, ← hOPC, ← hOPD, ← hOPM, ← hRES, ← hLK0, ← hLK1, ← hLK2, ← hCMD, ← hILL, ← hCTAB,
    ← hdriver]

/-- R91: what A5_CORRECT leaves; S and I are never unwritten. -/
theorem exec_a5Correct_of_written {s : State} (hW : s.W[0].written = true)
    (hCH : ∀ r ∈ [Reg.ch 1, .ch 2, .ch 3, .ch 4], s.written r = true) : exec .a5Correct s = .next (a5CorrectOn s) := by
  refine requireWritten_of_written (rs := a5Reads) (t := a5CorrectOn s) ?_
  exact List.forall_mem_append.mpr ⟨List.forall_mem_append.mpr ⟨chainingRegs_written s, initRegs_written s⟩,
    List.forall_mem_cons.mpr ⟨hW, hCH⟩⟩

/-- R92: what D5_CORRECT leaves; S is never unwritten. -/
theorem exec_d5Correct_of_written {s : State} (hW : s.W[4].written = true)
    (hCH : ∀ r ∈ [Reg.ch 0, .ch 1, .ch 2, .ch 3, .ch 5, .ch 6, .ch 7, .ch 8], s.written r = true) :
    exec .d5Correct s = .next (d5CorrectOn s) := by
  refine requireWritten_of_written (rs := d5Reads) (t := d5CorrectOn s) ?_
  exact List.forall_mem_append.mpr ⟨chainingRegs_written s, List.forall_mem_cons.mpr ⟨hW, hCH⟩⟩

/-- Settles O43: each new word is the one that the inverse operator finds. -/
theorem a5CorrectBackPropagates : Obligations.A5CorrectBackPropagates := by
  unfold Obligations.A5CorrectBackPropagates
  intro s hW hCH R a5
  rw [exec_a5Correct_of_written hW hCH, (a5CorrectOn_agree s).eq_withFiles]
  exact ⟨_, _, _, _, _, _, forwardOp_inverseOp .., rfl, forwardOp_inverseOp .., forwardOp_inverseOp ..,
    forwardOp_inverseOp .., forwardOp_inverseOp .., rfl⟩

/-- Settles O44: each new word is the one that the inverse operator finds. -/
theorem d5CorrectBackPropagates : Obligations.D5CorrectBackPropagates := by
  unfold Obligations.D5CorrectBackPropagates
  intro s hW hCH R d5
  rw [exec_d5Correct_of_written hW hCH, (d5CorrectOn_agree s).eq_withFiles]
  exact ⟨_, _, _, _, _, _, forwardOp_inverseOp .., rfl, forwardOp_inverseOp .., forwardOp_inverseOp ..,
    forwardOp_inverseOp .., forwardOp_inverseOp .., rfl⟩

/-! ### Round 1 after a correction (R95) -/

/-- R91, R92: the steps whose words a correction rewrites: `k`, which gets a new value, and the four that keep theirs. -/
def window (k : Fin 16) : List (Fin 16) := [k, k + 1, k + 2, k + 3, k + 4]

/-- R91, R92: A5_CORRECT rewrites from step 0 and D5_CORRECT from step 4. -/
def StartsCorrection (k : Fin 16) : Prop := k = 0 ∨ k = 4

section Window
variable {W W' : Vector Word 16} {c c' : Fin 16 → Word} {X : Vector Word 4} {k : Fin 16} (hk : StartsCorrection k)
include hk

/-- R59: the new value of step `k` is no longer in a register after the window. -/
theorem chainAfter_window (c : Fin 16 → Word) (X : Vector Word 4) :
    chainAfter c (window k) X = #v[c (k + 4), c (k + 3), c (k + 2), c (k + 1)] := by
  rw [← registers_getElem X]
  rcases hk with rfl | rfl <;> rfl

/-- R59: the five steps of a window, operand by operand. -/
theorem stepValues_window (h0 : forwardOp .one X[0] X[1] X[2] X[3] W[k] 3 = c k)
    (h1 : forwardOp .one X[3] (c k) X[1] X[2] W[k + 1] 7 = c (k + 1))
    (h2 : forwardOp .one X[2] (c (k + 1)) (c k) X[1] W[k + 2] 11 = c (k + 2))
    (h3 : forwardOp .one X[1] (c (k + 2)) (c (k + 1)) (c k) W[k + 3] 19 = c (k + 3))
    (h4 : forwardOp .one (c k) (c (k + 3)) (c (k + 2)) (c (k + 1)) W[k + 4] 3 = c (k + 4)) :
    stepValues .one W (window k) X = (window k).map c := by
  rw [← registers_getElem X]
  simp only [window, stepValues_cons_eq_map, updateStep_one_getElem]
  rcases hk with rfl | rfl <;> exact ⟨h0, h1, h2, h3, h4, rfl⟩

theorem steps16_window : steps16 = steps16.take k ++ (window k ++ steps16.drop (k + 5)) := by
  rcases hk with rfl | rfl <;> decide

theorem notMem_window {j : Fin 16} (hj : j ∈ steps16.take k ∨ j ∈ steps16.drop (k + 5)) : j ∉ window k := by
  revert j
  rcases hk with rfl | rfl <;> decide

/-- R95: round 1 still goes along the chain when the window does with its new value and words: before it nothing changed, and
after it the registers are as they were. -/
theorem round1_splice (h : stepValues .one W steps16 X = steps16.map c) (hW : ∀ j ∉ window k, W'[j] = W[j])
    (hc : ∀ j, j ≠ k → c' j = c j)
    (hmid : stepValues .one W' (window k) (chainAfter c (steps16.take k) X) = (window k).map c') :
    stepValues .one W' steps16 X = steps16.map c' := by
  have hout : ∀ j, j ∈ steps16.take k ∨ j ∈ steps16.drop (k + 5) → W'[j] = W[j] ∧ c' j = c j := fun j hj =>
    have hj' := notMem_window hk hj
    ⟨hW j hj', hc j fun e => hj' (e ▸ List.mem_cons_self)⟩
  have hbefore : chainAfter c' (steps16.take k) X = chainAfter c (steps16.take k) X :=
    chainAfter_congr (fun j hj => (hout j (.inl hj)).2) X
  have hafter : ∀ Y, chainAfter c' (window k) Y = chainAfter c (window k) Y := fun Y => by
    rw [chainAfter_window hk, chainAfter_window hk]
    rcases hk with rfl | rfl <;> rw [hc _ (by decide), hc _ (by decide), hc _ (by decide), hc _ (by decide)]
  rw [steps16_window hk, stepValues_append_eq_map, stepValues_append_eq_map] at h ⊢
  obtain ⟨hpre, -, hpost⟩ := h
  rw [hbefore, hafter]
  exact ⟨stepValues_one_congr (fun j hj => (hout j (.inl hj)).1) (fun j hj => (hout j (.inl hj)).2) hpre, hmid,
    stepValues_one_congr (fun j hj => (hout j (.inr hj)).1) (fun j hj => (hout j (.inr hj)).2) hpost⟩

end Window

/-- R95 (i): round 1 of compress(I, W) computes CH[0..15]. -/
def State.AlongChain (s : State) : Prop := round1Values s.I s.block = steps16.map s.chain

theorem State.AlongChain.runRound {s : State} (h : s.AlongChain) :
    runRound .one s.block s.I = #v[s.chain 12, s.chain 15, s.chain 14, s.chain 13] :=
  (foldl_updateStep_of_stepValues h).trans (chainAfter_steps16 _ _)

@[simp] theorem State.block_getElem (s : State) (j : Fin 16) : s.block[j] = s.msg j := vec16_getElem _ j

section Corrections
variable (s : State)

/-- R91: the new `W[0]` makes step 0 of round 2 give the new a5. -/
theorem forwardOp_a5CorrectOn :
    forwardOp .two s.S[0] s.S[1] s.S[2] s.S[3] ((a5CorrectOn s).msg 0) 3 = (a5CorrectOn s).S[0] := by
  simp [a5CorrectOn, State.msg]

/-- R92: the new `W[4]` makes step 1 of round 2 give the new d5. -/
theorem forwardOp_d5CorrectOn :
    forwardOp .two s.S[3] s.S[0] s.S[1] s.S[2] ((d5CorrectOn s).msg 4) 5 = (d5CorrectOn s).S[3] := by
  simp [d5CorrectOn, State.msg]

/-- R91: the new a5 meets its table, with the registers before it as reference state. -/
theorem a5CorrectOn_met (hwf : s.CTAB.wf) : tableMet s.CTAB.a5 (a5CorrectOn s).S[0] s.S := by
  obtain ⟨-, hA5, -⟩ := hwf
  have hvalue : (a5CorrectOn s).S[0] =
      applyR2 s.CTAB.a5 (forwardOp .two s.S[0] s.S[1] s.S[2] s.S[3] (s.msg 0) 3)
        (registers (s.S[0], s.S[1], s.S[2], s.S[3])) := by
    simp [a5CorrectOn, registers]
  rw [hvalue, registers_getElem]
  exact applyR2_met _ _ hA5

/-- R92: the new d5 meets its table, with the registers before it as reference state. -/
theorem d5CorrectOn_met (hwf : s.CTAB.wf) : tableMet s.CTAB.d5 (d5CorrectOn s).S[3] s.S := by
  obtain ⟨-, -, hD5⟩ := hwf
  have hvalue : (d5CorrectOn s).S[3] =
      applyR2 s.CTAB.d5 (forwardOp .two s.S[3] s.S[0] s.S[1] s.S[2] (s.msg 4) 5)
        (registers (s.S[0], s.S[1], s.S[2], s.S[3])) := by
    simp [d5CorrectOn, registers]
  rw [hvalue, registers_getElem]
  exact applyR2_met _ _ hD5

/-- R91: of S, A5_CORRECT writes a alone. -/
theorem a5CorrectOn_S : (a5CorrectOn s).S = s.S.set 0 (a5CorrectOn s).S[0] := by simp [a5CorrectOn]

theorem a5CorrectOn_S_rest :
    (a5CorrectOn s).S[1] = s.S[1] ∧ (a5CorrectOn s).S[2] = s.S[2] ∧ (a5CorrectOn s).S[3] = s.S[3] := by
  simp [a5CorrectOn]

theorem a5CorrectOn_chain {k : Fin 16} (hk : k ≠ 0) : (a5CorrectOn s).chain k = s.chain k :=
  (Changes.a5CorrectOn s).value (.ch k) (by simp [writes, hk])

theorem a5CorrectOn_msg {j : Fin 16} (hj : j ∉ window 0) : (a5CorrectOn s).msg j = s.msg j :=
  (Changes.a5CorrectOn s).value (.w j) (by revert j; decide)

/-- R92: of S, D5_CORRECT leaves a. -/
theorem d5CorrectOn_S0 : (d5CorrectOn s).S[0] = s.S[0] := by simp [d5CorrectOn]

theorem d5CorrectOn_chain {k : Fin 16} (hk : k ≠ 4) : (d5CorrectOn s).chain k = s.chain k :=
  (Changes.d5CorrectOn s).value (.ch k) (by simp [writes, hk])

theorem d5CorrectOn_msg {j : Fin 16} (hj : j ∉ window 4) : (d5CorrectOn s).msg j = s.msg j :=
  (Changes.d5CorrectOn s).value (.w j) (by revert j; decide)

end Corrections

/-- R91, R92: a correction that rewrites the words of its window and the value of its first step makes the steps of the window
write the chain that it leaves, when each new word solves its step. -/
theorem stepValues_rewritten {k : Fin 16} (hk : StartsCorrection k) {s t : State} {X : Vector Word 4}
    {m0 m1 m2 m3 m4 a : Word} (hCH : t.CH = s.CH.set k (.of a))
    (hW : t.W = ((((s.W.set k (.of m0)).set (k + 1 : Fin 16) (.of m1)).set (k + 2 : Fin 16) (.of m2)).set (k + 3 : Fin 16)
      (.of m3)).set (k + 4 : Fin 16) (.of m4))
    (h0 : forwardOp .one X[0] X[1] X[2] X[3] m0 3 = a) (h1 : forwardOp .one X[3] a X[1] X[2] m1 7 = s.chain (k + 1))
    (h2 : forwardOp .one X[2] (s.chain (k + 1)) a X[1] m2 11 = s.chain (k + 2))
    (h3 : forwardOp .one X[1] (s.chain (k + 2)) (s.chain (k + 1)) a m3 19 = s.chain (k + 3))
    (h4 : forwardOp .one a (s.chain (k + 3)) (s.chain (k + 2)) (s.chain (k + 1)) m4 3 = s.chain (k + 4)) :
    stepValues .one t.block (window k) X = (window k).map t.chain := by
  have hchain : ∀ j, t.chain j = if j = k then a else s.chain j := fun j => by
    rw [State.chain, hCH, set_getElem_fin, apply_ite Marked.val]
    rfl
  have hword : t.msg k = m0 ∧ t.msg (k + 1) = m1 ∧ t.msg (k + 2) = m2 ∧ t.msg (k + 3) = m3 ∧ t.msg (k + 4) = m4 := by
    simp only [State.msg, hW, set_getElem_fin]
    rcases hk with rfl | rfl <;> exact ⟨rfl, rfl, rfl, rfl, rfl⟩
  obtain ⟨hm0, hm1, hm2, hm3, hm4⟩ := hword
  have hne : k + 1 ≠ k ∧ k + 2 ≠ k ∧ k + 3 ≠ k ∧ k + 4 ≠ k := by rcases hk with rfl | rfl <;> decide
  obtain ⟨hne1, hne2, hne3, hne4⟩ := hne
  refine stepValues_window hk ?_ ?_ ?_ ?_ ?_ <;>
    simp only [State.block_getElem, hm0, hm1, hm2, hm3, hm4, hchain, if_true, if_neg hne1, if_neg hne2, if_neg hne3,
      if_neg hne4]
  · exact h0
  · exact h1
  · exact h2
  · exact h3
  · exact h4

/-- R91: A5_CORRECT's words solve the steps of its window. -/
theorem stepValues_a5CorrectOn (s : State) :
    stepValues .one (a5CorrectOn s).block (window 0) s.I = (window 0).map (a5CorrectOn s).chain :=
  stepValues_rewritten (s := s) (.inl rfl) rfl rfl rfl (forwardOp_inverseOp ..) (forwardOp_inverseOp ..)
    (forwardOp_inverseOp ..) (forwardOp_inverseOp ..)

/-- R92: D5_CORRECT's words solve the steps of its window. -/
theorem stepValues_d5CorrectOn (s : State) :
    stepValues .one (d5CorrectOn s).block (window 4) #v[s.chain 0, s.chain 3, s.chain 2, s.chain 1] =
      (window 4).map (d5CorrectOn s).chain :=
  stepValues_rewritten (s := s) (.inr rfl) rfl rfl rfl (forwardOp_inverseOp ..) (forwardOp_inverseOp ..)
    (forwardOp_inverseOp ..) (forwardOp_inverseOp ..)

/-- R91, R95 (i): A5_CORRECT keeps round 1 along the chain. -/
theorem State.AlongChain.a5CorrectOn {s : State} (h : s.AlongChain) : (a5CorrectOn s).AlongChain := by
  refine round1_splice (.inl rfl) h (fun j hj => ?_) (fun j hj => a5CorrectOn_chain s hj) (stepValues_a5CorrectOn s)
  rw [State.block_getElem, State.block_getElem, a5CorrectOn_msg s hj]

/-- R92, R95 (i): D5_CORRECT keeps round 1 along the chain. -/
theorem State.AlongChain.d5CorrectOn {s : State} (h : s.AlongChain) : (d5CorrectOn s).AlongChain := by
  refine round1_splice (.inr rfl) h (fun j hj => ?_) (fun j hj => d5CorrectOn_chain s hj) ?_
  · rw [State.block_getElem, State.block_getElem, d5CorrectOn_msg s hj]
  · rw [show steps16.take (4 : Fin 16) = quarter 0 from rfl, chainAfter_quarter]
    exact stepValues_d5CorrectOn s

/-! ### The modification phase (R95) -/

/-- R60: the first two steps of round 2, from the registers that round 1 leaves. -/
theorem round2Values_take_two {S0 X : Vector Word 4} {W : Vector Word 16} {a d : Word} (hX : runRound .one W S0 = X)
    (ha : forwardOp .two X[0] X[1] X[2] X[3] W[0] 3 = a) (hd : forwardOp .two X[3] a X[1] X[2] W[4] 5 = d) :
    (round2Values S0 W).take 2 = [a, d] := by
  have hhead : (updateStep .two W X 0)[target 0] = a := (updateStep_getElem ..).trans ha
  have hfirst : updateStep .two W X 0 = X.set 0 a := by
    rw [updateStep_eq, hhead]
    rfl
  have hsecond : (updateStep .two W (X.set 0 a) 1)[target 1] = d := by
    rw [updateStep_getElem, ← hd, ← registers_getElem X]
    rfl
  rw [round2Values, hX, stepValues_take]
  show [(updateStep .two W X 0)[target 0], (updateStep .two W (updateStep .two W X 0) 1)[target 1]] = [a, d]
  rw [hhead, hfirst, hsecond]

/-- R90: what R1_ALL leaves when its words are written. -/
theorem exec_r1All_of_written {s : State} (h : ∀ j : Fin 16, s.W[j].written = true) :
    exec .r1All s = .next (steps16.foldl r1StepOn s) :=
  requireWritten_of_written (compressReads_written_iff.mpr h)

/-- R91, R92: the state that A5_CORRECT and then D5_CORRECT leave. -/
def corrected (s : State) : State := d5CorrectOn (a5CorrectOn s)

/-- R95: the corrections complete after R1_ALL, which leaves every word and every value of the chain written. -/
theorem runCommands_corrections {s : State} (hW : ∀ k : Fin 16, s.W[k].written = true)
    (hCH : ∀ k : Fin 16, s.CH[k].written = true) :
    runCommands [.a5Correct, .d5Correct] s = .next (corrected s) := by
  have hmarks := (Changes.a5CorrectOn s).marks
  have hA5 : exec .a5Correct s = .next (a5CorrectOn s) :=
    exec_a5Correct_of_written (hW 0) (by simp [hCH, -Fin.getElem_fin])
  have hD5 : exec .d5Correct (a5CorrectOn s) = .next (d5CorrectOn (a5CorrectOn s)) := by
    refine exec_d5Correct_of_written (hmarks (.w 4) (hW 4)) fun r hr => hmarks r ?_
    revert r
    simp [hCH, -Fin.getElem_fin]
  simp only [runCommands, hA5, hD5, corrected]

/-- R90, R95 (i): from SEED's state, R1_ALL leaves round 1 along the chain. -/
theorem r1All_alongChain {s : State} (h : s.S = s.I) : (steps16.foldl r1StepOn s).AlongChain := by
  rw [State.AlongChain, (foldl_r1StepOn_agree steps16 s).I, ← h]
  exact round1Values_r1All s

section Corrected
variable (s : State)

/-- R91, R92: the corrections change a1 and a2 of the chain alone. -/
theorem corrected_chain {k : Fin 16} (h0 : k ≠ 0) (h4 : k ≠ 4) : (corrected s).chain k = s.chain k :=
  (d5CorrectOn_chain _ h4).trans (a5CorrectOn_chain s h0)

/-- R92: D5_CORRECT leaves the new a5. -/
theorem corrected_S0 : (corrected s).S[0] = (a5CorrectOn s).S[0] := d5CorrectOn_S0 _

/-- R91: the final `W[0]` makes step 0 of round 2 give the new a5. -/
theorem forwardOp_corrected_a5 :
    forwardOp .two s.S[0] s.S[1] s.S[2] s.S[3] (corrected s).block[0] 3 = (corrected s).S[0] := by
  have hword : (corrected s).block[0] = (a5CorrectOn s).msg 0 :=
    (State.block_getElem _ 0).trans (d5CorrectOn_msg _ (by decide))
  rw [hword, corrected_S0]
  exact forwardOp_a5CorrectOn s

/-- R92: the final `W[4]` makes step 1 of round 2 give the new d5, on the registers with the new a5. -/
theorem forwardOp_corrected_d5 :
    forwardOp .two s.S[3] (corrected s).S[0] s.S[1] s.S[2] (corrected s).block[4] 5 = (corrected s).S[3] := by
  have hword : (corrected s).block[4] = (d5CorrectOn (a5CorrectOn s)).msg 4 := State.block_getElem _ 4
  obtain ⟨hb4, hc4, hd4⟩ := a5CorrectOn_S_rest s
  rw [hword, corrected_S0, ← hb4, ← hc4, ← hd4]
  exact forwardOp_d5CorrectOn (a5CorrectOn s)

variable {s} (hround : s.AlongChain)
include hround

theorem State.AlongChain.corrected : (corrected s).AlongChain := hround.a5CorrectOn.d5CorrectOn

variable (hS : s.S = #v[s.chain 12, s.chain 15, s.chain 14, s.chain 13])
include hS

/-- R95: round 1 with the corrected words ends in the registers that the corrections started from. -/
theorem runRound_corrected : runRound .one (corrected s).block (corrected s).I = s.S := by
  rw [hround.corrected.runRound, hS]
  simp only [corrected_chain s, ne_eq, Fin.reduceEq, not_false_eq_true]

/-- R95 (ii): a5 and d5 of the compression are the values that the corrections wrote. -/
theorem round2Values_corrected :
    (round2Values (corrected s).I (corrected s).block).take 2 = [(corrected s).S[0], (corrected s).S[3]] :=
  round2Values_take_two (runRound_corrected hround hS) (forwardOp_corrected_a5 s) (forwardOp_corrected_d5 s)

/-- R95 (ii): they meet their tables, each with the registers before it as reference state. -/
theorem tableMet_corrected (hwf : s.CTAB.wf) :
    tableMet s.CTAB.a5 (corrected s).S[0] (runRound .one (corrected s).block (corrected s).I) ∧
    tableMet s.CTAB.d5 (corrected s).S[3]
      ((runRound .one (corrected s).block (corrected s).I).set 0 (corrected s).S[0]) := by
  rw [runRound_corrected hround hS, corrected_S0, ← a5CorrectOn_S]
  exact ⟨a5CorrectOn_met s hwf, d5CorrectOn_met (a5CorrectOn s) hwf⟩

end Corrected

/-- R95 (iii): a condition that sees neither a1 nor a2 still holds after the corrections. -/
theorem condMet_corrected {s : State} {b0 b0' : Word} {k : Fin 16} {p : BitRule}
    (hmet : condMet p.cond (s.chain k) (chainReference b0 s.chain k) p.bit) (h0 : k ≠ 0) (h4 : k ≠ 4)
    (href : (k = 1 ∨ k = 5) → p.cond ≠ .equalToReference) :
    condMet p.cond ((corrected s).chain k) (chainReference b0' (corrected s).chain k) p.bit := by
  rw [corrected_chain s h0 h4]
  by_cases hk : k = 1 ∨ k = 5
  · exact condMet_of_ne_equalToReference (href hk) hmet
  · have hbefore : ∀ k : Fin 16, ¬ (k = 1 ∨ k = 5) → k - 1 ≠ 0 ∧ k - 1 ≠ 4 := by decide
    obtain ⟨hne0, hne4⟩ := hbefore k hk
    rw [chainReference, if_neg h0] at hmet ⊢
    rw [corrected_chain s hne0 hne4]
    exact hmet

/-- R64, R95: the phase is R1_ALL and the two corrections on SEED's state. -/
theorem runCommands_modificationPhase {s : State} (hW : ∀ j : Fin 16, s.W[j].written = true) :
    runCommands [.seed, .r1All, .a5Correct, .d5Correct] s =
      .next (corrected (steps16.foldl r1StepOn (s.setChain s.I))) := by
  have hwritten := r1All_written (s.setChain s.I)
  have hR1 : exec .r1All (s.setChain s.I) = .next (steps16.foldl r1StepOn (s.setChain s.I)) := exec_r1All_of_written hW
  rw [runCommands, exec_seed, ← runCommands_corrections (fun k => (hwritten k).1) fun k => (hwritten k).2]
  simp only [runCommands, hR1]

/-- Settles O45: R1_ALL leaves round 1 along CH with every condition met; each correction keeps round 1 along the chain, of which
it changes one value, and meets its own table. -/
theorem modificationPhaseGuarantees : Obligations.ModificationPhaseGuarantees := by
  unfold Obligations.ModificationPhaseGuarantees
  intro s hwf hW
  have hphase := runCommands_modificationPhase hW
  obtain ⟨-, hmet, hS, -⟩ := r1AllMakesEveryRound1ConditionHold (s.setChain s.I) _ hwf (exec_r1All_of_written hW)
  have hround : (steps16.foldl r1StepOn (s.setChain s.I)).AlongChain := r1All_alongChain rfl
  obtain ⟨hI, hctab⟩ : (steps16.foldl r1StepOn (s.setChain s.I)).I = s.I ∧
      (steps16.foldl r1StepOn (s.setChain s.I)).CTAB = s.CTAB :=
    have hkept := foldl_r1StepOn_agree steps16 (s.setChain s.I)
    ⟨hkept.I, hkept.CTAB⟩
  generalize steps16.foldl r1StepOn (s.setChain s.I) = u at hphase hmet hS hround hI hctab
  obtain ⟨hA5, hD5⟩ := tableMet_corrected hround hS (hctab ▸ hwf)
  rw [hctab] at hA5 hD5
  exact ⟨_, hphase, hI, hround.corrected, round2Values_corrected hround hS, hA5, hD5,
    fun k h0 h4 p hp href => condMet_corrected (hmet k p hp) h0 h4 href⟩

end Sys2Proof.Machine
end

section
/-!
PROOFS. Runs of the host over the block (spec/45_host_procedures.md R96, spec/30_encoding.md R52): the commands, the reads and the
writes of words that it issues one after another, said once for any queue of accesses, and the request that it serves next.
-/

namespace Sys2Proof.Machine

/-! ### A command neither sees nor changes CMD and the host's side (R26) -/

/-- A state with another word in CMD and another host's side. -/
def State.withHost (s : State) (c : Word) (d : Driver) : State := (s.setCMD c).setDriver d

@[simp] theorem State.withHost_S (s : State) (c : Word) (d : Driver) : (s.withHost c d).S = s.S := rfl
@[simp] theorem State.withHost_I (s : State) (c : Word) (d : Driver) : (s.withHost c d).I = s.I := rfl
@[simp] theorem State.withHost_W (s : State) (c : Word) (d : Driver) : (s.withHost c d).W = s.W := rfl
@[simp] theorem State.withHost_CTAB (s : State) (c : Word) (d : Driver) : (s.withHost c d).CTAB = s.CTAB := rfl
@[simp] theorem State.withHost_driver (s : State) (c : Word) (d : Driver) : (s.withHost c d).driver = d := rfl
@[simp] theorem State.withHost_block (s : State) (c : Word) (d : Driver) : (s.withHost c d).block = s.block := rfl

@[simp] theorem State.withHost_withHost (s : State) (c c' : Word) (d d' : Driver) :
    (s.withHost c d).withHost c' d' = s.withHost c' d' := rfl
@[simp] theorem State.withHost_setDriver (s : State) (c : Word) (d d' : Driver) :
    (s.withHost c d).setDriver d' = s.withHost c d' := rfl

theorem written_withHost (s : State) (c : Word) (d : Driver) (r : Reg) : (s.withHost c d).written r = s.written r :=
  (written_setDriver _ d r).trans (written_setCMD s c r)

theorem requireWritten_withHost {rs : List Reg} {s t u : State} (h : requireWritten rs s t = .next u) (c : Word)
    (d : Driver) : requireWritten rs (s.withHost c d) (t.withHost c d) = .next (u.withHost c d) := by
  obtain ⟨hrs, rfl⟩ := requireWritten_next.mp h
  exact requireWritten_of_written fun r hr => (written_withHost s c d r).trans (hrs r hr)

theorem foldl_r1StepOn_withHost (ks : List (Fin 16)) (s : State) (c : Word) (d : Driver) :
    ks.foldl r1StepOn (s.withHost c d) = (ks.foldl r1StepOn s).withHost c d := by
  induction ks generalizing s with
  | nil => rfl
  | cons k ks ih => exact ih (r1StepOn s k)

/-- R26, R96: a command does the same on a state with another CMD word and another host's side. -/
theorem exec_withHost {i : Instr} {s t : State} (hwf : i.wf = true) (h : exec i s = .next t) (c : Word) (d : Driver) :
    exec i (s.withHost c d) = .next (t.withHost c d) := by
  cases i with
  | nop | loadIv | ctLookupR1 _ =>
    cases h
    rfl
  | ctLookupA5 j | ctLookupD5 j =>
    have hj : j.val < 5 := Nat.lt_succ_of_le (of_decide_eq_true hwf)
    simp only [exec, execCtLookupA5, execCtLookupD5, dif_pos hj] at h ⊢
    cases h
    rfl
  | r1All =>
    have hcheck := requireWritten_withHost h c d
    rwa [← foldl_r1StepOn_withHost] at hcheck
  | seed => exact requireWritten_withHost (rs := initRegs) (s := s) (t := s.setChain s.I) h c d
  | capture => exact requireWritten_withHost (rs := chainingRegs) (s := s) (t := s.setInit s.S) h c d
  | compress | r1Step _ | a5Correct | d5Correct => exact requireWritten_withHost h c d
  | fwdF _ | fwdG _ | fwdH _ | invF _ | invG _ | invH _ => exact requireWritten_withHost h c d
  | ctApplyR1 _ | ctApplyA5 | ctApplyD5 => exact requireWritten_withHost h c d

theorem runCommands_cons {i : Instr} {is : List Instr} {s u : State} :
    runCommands (i :: is) s = .next u ↔ ∃ t, exec i s = .next t ∧ runCommands is t = .next u := by
  rw [runCommands]
  cases h : exec i s <;> simp

theorem runCommands_withHost {is : List Instr} {s t : State} (hwf : ∀ i ∈ is, i.wf = true)
    (h : runCommands is s = .next t) (c : Word) (d : Driver) :
    runCommands is (s.withHost c d) = .next (t.withHost c d) := by
  induction is generalizing s with
  | nil =>
    cases h
    rfl
  | cons i is ih =>
    obtain ⟨hi, his⟩ := List.forall_mem_cons.mp hwf
    obtain ⟨u, hu, hrest⟩ := runCommands_cons.mp h
    exact runCommands_cons.mpr ⟨_, exec_withHost hi hu c d, ih his hrest⟩

/-- R15, R23: commands other than CAPTURE leave I and every mark that is set. -/
theorem runCommands_keeps_init {is : List Instr} {s t : State} (his : ∀ i ∈ is, i.wf = true ∧ i ≠ .capture)
    (h : runCommands is s = .next t) : t.I = s.I ∧ ∀ r, s.written r = true → t.written r = true := by
  induction is generalizing s with
  | nil =>
    cases h
    exact ⟨rfl, fun _ => id⟩
  | cons i is ih =>
    obtain ⟨⟨hwf, hne⟩, his⟩ := List.forall_mem_cons.mp his
    obtain ⟨u, hu, hrest⟩ := runCommands_cons.mp h
    have hchanges := exec_changes hwf hu
    obtain ⟨hI, hmarks⟩ := ih his hrest
    exact ⟨hI.trans (hchanges.I (init_notMem_writes hne)), fun r hr => hmarks r (hchanges.marks r hr)⟩

/-! ### Queues of accesses (R37, R52) -/

/-- R26, R52: the host's CMD writes run their commands, one after another. -/
theorem runsTo_commands {is : List Instr} {rest : List Access} {s t : State} (hwf : ∀ i ∈ is, i.wf = true)
    (hp : s.driver.pending = is.map cmdAccess ++ rest) (h : runCommands is s = .next t) :
    ∃ c, s.runsTo is.length (t.withHost c { s.driver with pending := rest }) := by
  induction is generalizing s t with
  | nil =>
    cases h
    subst hp
    exact ⟨_, runsTo_zero _⟩
  | cons i is ih =>
    obtain ⟨hi, his⟩ := List.forall_mem_cons.mp hwf
    obtain ⟨u, hu, hrest⟩ := runCommands_cons.mp h
    let d : Driver := { s.driver with pending := is.map cmdAccess ++ rest }
    have hstep : step s = .next (u.withHost (encode i) d) :=
      (step_cmdAccess (decodeOfEncodeIsTheCommand i hi) hp).trans (exec_withHost hi hu (encode i) d)
    obtain ⟨c, hrun⟩ := ih (s := u.withHost (encode i) d) (t := t.withHost (encode i) d) his rfl
      (runCommands_withHost his hrest _ d)
    exact ⟨c, runsTo_cons hstep hrun⟩

/-- R31, R127: the host's reads of written registers add their values to the read log, and change nothing else. -/
theorem runsTo_reads {rs : List Reg} {rest : List Access} {s : State} (hrs : ∀ r ∈ rs, s.written r = true)
    (hp : s.driver.pending = rs.map rdAccess ++ rest) :
    s.runsTo rs.length
      (s.setDriver { s.driver with
        pending := rest, readLog := (rs.map s.value).reverse ++ s.driver.readLog }) := by
  induction rs generalizing s with
  | nil =>
    subst hp
    exact runsTo_zero s
  | cons r rs ih =>
    obtain ⟨hr, hrs⟩ := List.forall_mem_cons.mp hrs
    let d : Driver :=
      { s.driver with pending := rs.map rdAccess ++ rest, readLog := s.value r :: s.driver.readLog }
    have hstep : step s = .next (s.setDriver d) := (hostReadReturnsTheValueOnly.1 s r _ hp).1 hr
    have hrun := ih (s := s.setDriver d) (fun r' h => (written_setDriver s d r').trans (hrs r' h)) rfl
    have hvalues : rs.map (s.setDriver d).value = rs.map s.value := List.map_congr_left fun r' _ => value_setDriver s d r'
    rw [hvalues] at hrun
    rw [List.map_cons, List.reverse_cons, List.append_assoc]
    exact runsTo_cons hstep hrun

/-- R23: a register whose mark is set is known by its value. -/
theorem Marked.eq_of_written {m : Marked} (h : m.written = true) : m = .of m.val := by
  rw [Marked.of, ← h]

theorem State.block_congr {s t : State} (h : t.W = s.W) : t.block = s.block := by
  unfold State.block State.msg
  rw [h]

/-- R16: the message words after the words `ws j` were written for the indices `js`. -/
theorem foldl_setW (ws : Vector Word 16) (js : List (Fin 16)) (s : State) :
    js.foldl (fun t j => t.setW j ws[j]) s =
      { s with W := js.foldl (fun (W : Vector Marked 16) (j : Fin 16) => W.set j (.of ws[j])) s.W } := by
  induction js generalizing s with
  | nil => rfl
  | cons j js ih => exact ih (s.setW j ws[j])

theorem foldl_setW_getElem (ws : Vector Word 16) (js : List (Fin 16)) (W : Vector Marked 16) (k : Fin 16) :
    (js.foldl (fun (W : Vector Marked 16) (j : Fin 16) => W.set j (.of ws[j])) W)[k] =
      if k ∈ js then .of ws[k] else W[k] := by
  induction js generalizing W with
  | nil => rfl
  | cons j js ih =>
    rw [List.foldl_cons, ih, set_getElem_fin]
    by_cases hk : k = j <;> simp [hk]

/-- R16: a state with the block `ws` in W. -/
def State.withBlock (s : State) (ws : Vector Word 16) : State := { s with W := vec16 fun j => .of ws[j] }

@[simp] theorem State.withBlock_W (s : State) (ws : Vector Word 16) : (s.withBlock ws).W = vec16 fun j => .of ws[j] := rfl

theorem State.withBlock_written (s : State) (ws : Vector Word 16) (j : Fin 16) : (s.withBlock ws).W[j].written = true := by
  simp

@[simp] theorem State.withBlock_block (s : State) (ws : Vector Word 16) : (s.withBlock ws).block = ws := by
  apply vector_ext_fin
  simp [State.msg, -Fin.getElem_fin]

/-! ### A run that goes on -/

namespace State.runsTo
variable {s t u : State} {k : Nat} {rest : List Access} (h : s.runsTo k t)
include h

theorem step (hs : Machine.step t = .next u) : s.runsTo (k + 1) u :=
  runsTo_trans h (runsTo_cons hs (runsTo_zero u))

theorem commands {is : List Instr} (hwf : ∀ i ∈ is, i.wf = true) (hp : t.driver.pending = is.map cmdAccess ++ rest)
    (hc : runCommands is t = .next u) :
    ∃ c, s.runsTo (k + is.length) (u.withHost c { t.driver with pending := rest }) :=
  have ⟨c, hrun⟩ := runsTo_commands hwf hp hc
  ⟨c, runsTo_trans h hrun⟩

/-- R52: LDW puts its sixteen words into W. -/
theorem loadWords {ws : Vector Word 16} (hp : t.driver.pending = Machine.loadWords ws ++ rest) :
    s.runsTo (k + 16) ((t.withBlock ws).queued rest) := by
  have hW : steps16.foldl (fun (W : Vector Marked 16) (j : Fin 16) => W.set j (.of ws[j])) t.W = (t.withBlock ws).W := by
    apply vector_ext_fin
    intro j
    rw [foldl_setW_getElem, if_pos (mem_steps16 j), State.withBlock_W, vec16_getElem]
  have hrun := runsTo_wordWrites ws steps16 rest t hp
  rw [foldl_setW, hW] at hrun
  exact runsTo_trans h hrun

end State.runsTo

/-! ### The request served next (R96) -/

/-- R127: the host when it serves a request: a host program that ended before is over. -/
def Driver.serving (d : Driver) : Driver := { d with inProgram := false }

section Requests
variable {s : State} {js : List Job} (hp : s.driver.pending = [])
include hp

theorem step_ingest {bytes : List Byte} (hj : s.driver.jobs = .ingest bytes :: js) :
    step s = .next (s.setDriver (ingestStep bytes js s.driver.serving)) := by
  simp only [step_of_idle hp, driverStep, hj]
  rfl

theorem step_finalize (hj : s.driver.jobs = .finalize :: js) :
    step s = .next (s.setDriver (finalizeStep js s.driver.serving)) := by
  simp only [step_of_idle hp, driverStep, hj]
  rfl

theorem step_writeInit {x : Vector Word 4} (hj : s.driver.jobs = .writeInit x :: js) :
    step s = .next (s.setDriver (writeInitStep x js s.driver.serving)) := by
  simp only [step_of_idle hp, driverStep, hj]
  rfl

theorem step_find {group : Option Nat} (hj : s.driver.jobs = .find group :: js) :
    step s = findStep group js s.driver.serving s := by
  simp only [step_of_idle hp, driverStep, Driver.serving, hj]

end Requests

end Sys2Proof.Machine
end

section
/-!
PROOFS. The Message Buffer (spec/45_host_procedures.md R98, R99): what it folds is the input in blocks of 64 bytes, however the input
is cut into ingests, and finalize fills the last block with zero bytes.
-/

namespace Sys2Proof.Machine

/-! ### Folding bytes (R35, R61) -/

/-- R61: the fold of compress over the blocks of 64 bytes in `bs`. -/
def foldMessage (S : Vector Word 4) (bs : List Byte) : Vector Word 4 :=
  foldBlocks S ((List.range (bs.length / 64)).map fun n => packBlock ((bs.drop (64 * n)).take 64))

@[simp] theorem foldMessage_nil (S : Vector Word 4) : foldMessage S [] = S := rfl

/-- R61: the first block of 64 bytes is folded first. -/
theorem foldMessage_block (S : Vector Word 4) {b : List Byte} (hb : b.length = 64) (bs : List Byte) :
    foldMessage S (b ++ bs) = foldMessage (compress S (packBlock b)) bs := by
  have hlen : (b ++ bs).length / 64 = bs.length / 64 + 1 := by
    rw [List.length_append]
    omega
  have hfirst : ((b ++ bs).drop (64 * 0)).take 64 = b := List.take_left' hb
  have hlater : ∀ n, (b ++ bs).drop (64 * (n + 1)) = bs.drop (64 * n) := by
    intro n
    rw [Nat.mul_succ, Nat.add_comm, ← List.drop_drop, List.drop_left' hb]
  rw [foldMessage, hlen, List.range_succ_eq_map, List.map_cons, List.map_map, foldBlocks, List.foldl_cons, hfirst]
  simp only [Function.comp_def, Nat.succ_eq_add_one, hlater]
  rfl

/-- R98: LDBLK and COMPRESS then fold one block. -/
theorem State.runsTo.fold {s t : State} {k : Nat} {bytes : List Byte} (h : s.runsTo k t)
    (hp : t.driver.pending = foldAccesses bytes) :
    ∃ k' u, s.runsTo k' u ∧ u.driver = { t.driver with pending := [] } ∧
      u.S = compress t.S (packBlock bytes) ∧ u.I = t.I ∧ u.CTAB = t.CTAB := by
  have hcompress (v : State) (hW : ∀ j : Fin 16, v.W[j].written = true) :
      runCommands [.compress] v = .next (v.setChain (compress v.S v.block)) :=
    runCommands_cons.mpr ⟨_, exec_compress_of_written hW, rfl⟩
  obtain ⟨c, hfold⟩ := (h.loadWords hp).commands (is := [.compress]) (rest := []) (by decide) rfl
    (hcompress _ (t.withBlock_written _))
  have hblock : ((t.withBlock (packBlock bytes)).queued [cmdAccess .compress]).block = packBlock bytes :=
    t.withBlock_block _
  rw [hblock] at hfold
  exact ⟨_, _, hfold, rfl, rfl, rfl, rfl⟩

/-! ### Ingest (R98) -/

section Ingest
variable {d : Driver} {bytes : List Byte} (js : List Job)

theorem ingestStep_of_room (h : bytes.length < 64 - d.buffer.length) :
    ingestStep bytes js d =
      { d with
        jobs := js, buffer := d.buffer ++ bytes, byteCount := countBytes d.byteCount bytes.length,
        ingested := d.ingested || !bytes.isEmpty } := if_pos h

theorem ingestStep_of_full (h : ¬ bytes.length < 64 - d.buffer.length) :
    ingestStep bytes js d =
      { d with
        pending := foldAccesses (d.buffer ++ bytes.take (64 - d.buffer.length))
        jobs := .ingest (bytes.drop (64 - d.buffer.length)) :: js
        buffer := []
        byteCount := countBytes d.byteCount (bytes.take (64 - d.buffer.length)).length
        ingested := true } := if_neg h

end Ingest

/-- R98: from `s` to `t` the host has taken in `bytes`: the folding of whatever follows is the same from both, and the buffer
holds what is left of the last block. -/
structure Absorbs (bytes : List Byte) (s t : State) : Prop where
  idle   : t.driver.pending = []
  short  : t.driver.buffer.length < 64
  fold   : ∀ more, foldMessage t.S (t.driver.buffer ++ more) = foldMessage s.S (s.driver.buffer ++ bytes ++ more)
  rest   : t.driver.buffer.length % 64 = (s.driver.buffer ++ bytes).length % 64
  fresh  : t.driver.buffer = [] → t.driver.ingested = false →
    s.driver.buffer ++ bytes = [] ∧ s.driver.ingested = false
  init   : t.I = s.I
  tables : t.CTAB = s.CTAB

theorem Absorbs.refl {s : State} (hp : s.driver.pending = []) (hshort : s.driver.buffer.length < 64) :
    Absorbs [] s s where
  idle := hp
  short := hshort
  fold := by simp
  rest := by simp
  fresh hb hi := ⟨by simp [hb], hi⟩
  init := rfl
  tables := rfl

theorem Absorbs.trans {b1 b2 : List Byte} {s t u : State} (h : Absorbs b1 s t) (h' : Absorbs b2 t u) :
    Absorbs (b1 ++ b2) s u where
  idle := h'.idle
  short := h'.short
  fold more := by
    rw [h'.fold, List.append_assoc, h.fold]
    simp only [List.append_assoc]
  rest := by
    have h1 := h.rest
    have h2 := h'.rest
    simp only [List.length_append] at h1 h2 ⊢
    omega
  fresh hb hi := by
    obtain ⟨hb2, hi2⟩ := h'.fresh hb hi
    obtain ⟨hnil, rfl⟩ := List.append_eq_nil_iff.mp hb2
    obtain ⟨hb1, hi1⟩ := h.fresh hnil hi2
    exact ⟨by simpa using hb1, hi1⟩
  init := h'.init.trans h.init
  tables := h'.tables.trans h.tables

/-- R98: bytes that leave room are appended. -/
theorem absorbs_of_room {s : State} {js : List Job} {bytes : List Byte} (hp : s.driver.pending = [])
    (hroom : bytes.length < 64 - s.driver.buffer.length) :
    (s.setDriver (ingestStep bytes js s.driver.serving)).driver.jobs = js ∧
      Absorbs bytes s (s.setDriver (ingestStep bytes js s.driver.serving)) := by
  rw [ingestStep_of_room js (d := s.driver.serving) hroom]
  refine ⟨rfl, hp, ?_, fun _ => rfl, rfl, fun hb hi => ⟨hb, ?_⟩, rfl, rfl⟩
  · show (s.driver.buffer ++ bytes).length < 64
    rw [List.length_append]
    omega
  · exact (Bool.or_eq_false_iff.mp hi).1

/-- R98: bytes that fill the buffer make the host fold it, and go on with the rest of them. -/
theorem absorbs_of_full {s : State} {js : List Job} {bytes : List Byte} (hp : s.driver.pending = [])
    (hj : s.driver.jobs = .ingest bytes :: js) (hshort : s.driver.buffer.length < 64)
    (hfull : ¬ bytes.length < 64 - s.driver.buffer.length) :
    ∃ k t, s.runsTo k t ∧ t.driver.jobs = .ingest (bytes.drop (64 - s.driver.buffer.length)) :: js ∧
      Absorbs (bytes.take (64 - s.driver.buffer.length)) s t := by
  have hlen : (s.driver.buffer ++ bytes.take (64 - s.driver.buffer.length)).length = 64 := by
    rw [List.length_append, List.length_take]
    omega
  have hserve := step_ingest hp hj
  rw [ingestStep_of_full js (d := s.driver.serving) hfull] at hserve
  obtain ⟨k, t, hrun, hdriver, hS, hI, htables⟩ := ((runsTo_zero s).step hserve).fold rfl
  refine ⟨k, t, hrun, by rw [hdriver]; rfl, ?_⟩
  refine ⟨by rw [hdriver], by simp [hdriver], fun more => ?_, by simp [hdriver, hlen], ?_, hI, htables⟩
  · rw [foldMessage_block _ hlen, hdriver, hS]
    rfl
  · simp [hdriver]

/-- R98: one ingest runs to its end. -/
theorem runsTo_ingest {bytes : List Byte} {js : List Job} {s : State} (hp : s.driver.pending = [])
    (hj : s.driver.jobs = .ingest bytes :: js) (hshort : s.driver.buffer.length < 64) :
    ∃ k t, s.runsTo k t ∧ t.driver.jobs = js ∧ Absorbs bytes s t := by
  induction hn : bytes.length using Nat.strong_induction_on generalizing bytes s with
  | _ n ih =>
    by_cases hroom : bytes.length < 64 - s.driver.buffer.length
    · exact ⟨1, _, runsTo_cons (step_ingest hp hj) (runsTo_zero _), absorbs_of_room hp hroom⟩
    · obtain ⟨k, t, hrun, hjobs, habs⟩ := absorbs_of_full hp hj hshort hroom
      have hless : (bytes.drop (64 - s.driver.buffer.length)).length < n := by
        rw [List.length_drop]
        omega
      obtain ⟨k', u, hrun', hjobs', habs'⟩ := ih _ hless habs.idle hjobs habs.short rfl
      exact ⟨k + k', u, runsTo_trans hrun hrun', hjobs', List.take_append_drop _ bytes ▸ habs.trans habs'⟩

/-- R98: so does any number of them. -/
theorem runsTo_ingests {Ps : List (List Byte)} {js : List Job} {s : State} (hp : s.driver.pending = [])
    (hj : s.driver.jobs = Ps.map .ingest ++ js) (hshort : s.driver.buffer.length < 64) :
    ∃ k t, s.runsTo k t ∧ t.driver.jobs = js ∧ Absorbs Ps.flatten s t := by
  induction Ps generalizing s with
  | nil => exact ⟨0, s, runsTo_zero s, hj, .refl hp hshort⟩
  | cons P Ps ih =>
    obtain ⟨k, t, hrun, hjobs, habs⟩ := runsTo_ingest hp hj hshort
    obtain ⟨k', u, hrun', hjobs', habs'⟩ := ih habs.idle hjobs habs.short
    exact ⟨k + k', u, runsTo_trans hrun hrun', hjobs', habs.trans habs'⟩

/-! ### Finalize (R99) -/

theorem zeroBytes_length (n : Nat) : (zeroBytes n).length = n := List.length_replicate

section Finalize
variable {d : Driver} (js : List Job)

theorem finalizeStep_of_bytes (h : d.buffer ≠ []) :
    finalizeStep js d =
      { d with
        pending := foldAccesses (d.buffer ++ zeroBytes (64 - d.buffer.length))
        jobs := js
        buffer := []
        zeroPadding := some (zeroBytes (64 - d.buffer.length)) } := if_pos (List.length_pos_iff.mpr h)

/-- R99: with no byte left, finalize folds nothing, but for a message of no byte with EMPTY_PREFIX_PAD = 64. -/
theorem finalizeStep_of_none (hb : d.buffer = []) (h : d.ingested = true ∨ d.emptyPrefixPad = .pad0) :
    finalizeStep js d = { d with jobs := js, zeroPadding := some [] } := by
  cases hi : d.ingested with
  | true => simp [finalizeStep, hb, hi]
  | false =>
    have hpad : d.emptyPrefixPad = .pad0 := h.resolve_left (by simp [hi])
    simp [finalizeStep, hb, hi, hpad]

theorem finalizeStep_of_pad64 (hb : d.buffer = []) (hi : d.ingested = false) (hpad : d.emptyPrefixPad = .pad64) :
    finalizeStep js d =
      { d with
        pending := foldAccesses (zeroBytes 64), jobs := js, zeroPadding := some (zeroBytes 64) } := by
  simp [finalizeStep, hb, hi, hpad]

end Finalize

/-- R99: finalize of a message of at least one byte folds what the buffer holds, filled with zero bytes. -/
theorem runsTo_finalize {s : State} {js : List Job} (hp : s.driver.pending = []) (hj : s.driver.jobs = .finalize :: js)
    (hshort : s.driver.buffer.length < 64) (hsome : s.driver.buffer = [] → s.driver.ingested = true) :
    ∃ k t, s.runsTo k t ∧ t.driver.pending = [] ∧ t.driver.jobs = js ∧ t.driver.buffer = [] ∧
      t.driver.zeroPadding = some (zeroBytes ((64 - s.driver.buffer.length) % 64)) ∧
      t.S = foldMessage s.S (s.driver.buffer ++ zeroBytes ((64 - s.driver.buffer.length) % 64)) ∧
      t.I = s.I ∧ t.CTAB = s.CTAB := by
  have hserve := step_finalize hp hj
  by_cases hempty : s.driver.buffer = []
  · rw [finalizeStep_of_none js (d := s.driver.serving) hempty (.inl (hsome hempty))] at hserve
    rw [hempty]
    exact ⟨1, _, runsTo_cons hserve (runsTo_zero _), hp, rfl, hempty, rfl, rfl, rfl, rfl⟩
  · have hpos : 0 < s.driver.buffer.length := List.length_pos_iff.mpr hempty
    have hpad : (64 - s.driver.buffer.length) % 64 = 64 - s.driver.buffer.length := Nat.mod_eq_of_lt (by omega)
    have hlen : (s.driver.buffer ++ zeroBytes (64 - s.driver.buffer.length)).length = 64 := by
      rw [List.length_append, zeroBytes_length]
      omega
    rw [finalizeStep_of_bytes js (d := s.driver.serving) hempty] at hserve
    obtain ⟨k, t, hrun, hdriver, hS, hI, htables⟩ := ((runsTo_zero s).step hserve).fold rfl
    have hfold : foldMessage s.S (s.driver.buffer ++ zeroBytes (64 - s.driver.buffer.length)) = t.S := by
      rw [hS, ← List.append_nil (_ ++ zeroBytes _), foldMessage_block _ hlen, foldMessage_nil]
      rfl
    rw [hpad, hfold]
    exact ⟨k, t, hrun, by rw [hdriver], by rw [hdriver]; rfl, by rw [hdriver]; rfl, by rw [hdriver]; rfl, rfl, hI, htables⟩

/-- Settles O47: the ingests absorb their bytes, and finalize folds the last block. -/
theorem messageBufferFoldsPaddedInput : Obligations.MessageBufferFoldsPaddedInput := by
  unfold Obligations.MessageBufferFoldsPaddedInput
  intro s Ps js hp hj hshort hsome P pad
  obtain ⟨k, t, hrun, hjobs, habs⟩ := runsTo_ingests hp hj hshort
  have hnonempty : t.driver.buffer = [] → t.driver.ingested = true := by
    intro hb
    by_contra hi
    obtain ⟨hP, hfresh⟩ := habs.fresh hb (Bool.eq_false_iff.mpr hi)
    rcases hsome with h | h
    · exact h hP
    · simp [hfresh] at h
  obtain ⟨k', u, hrun', hidle, hjobs', hbuffer, hpadding, hS, hI, htables⟩ :=
    runsTo_finalize habs.idle hjobs habs.short hnonempty
  have hrest : t.driver.buffer.length = P.length % 64 := by
    rw [← habs.rest, Nat.mod_eq_of_lt habs.short]
  have hblocks : (P ++ pad).length / 64 = (P.length + 63) / 64 := by
    rw [List.length_append, zeroBytes_length]
    omega
  rw [hrest] at hpadding hS
  refine ⟨k + k', u, runsTo_trans hrun hrun', hidle, hjobs', hbuffer, hpadding, ?_, hI.trans habs.init,
    htables.trans habs.tables⟩
  rw [hS, habs.fold, ← hblocks]
  rfl

/-- R35: a block of zero bytes is a block of zero words. -/
theorem packBlock_zeroBytes : packBlock (zeroBytes 64) = vec16 fun _ => 0 := by decide

/-- Settles O48: the third case of finalize, for each value of the parameter. -/
theorem finalizeOfEmptyPrefix : Obligations.FinalizeOfEmptyPrefix := by
  unfold Obligations.FinalizeOfEmptyPrefix
  intro s js hp hj hbuffer hfresh
  have hserve := step_finalize hp hj
  refine ⟨fun hpad => ?_, fun hpad => ?_⟩
  · rw [finalizeStep_of_none js (d := s.driver.serving) hbuffer (.inr hpad)] at hserve
    exact ⟨1, _, runsTo_cons hserve (runsTo_zero _), rfl, rfl, hp⟩
  · rw [finalizeStep_of_pad64 js (d := s.driver.serving) hbuffer hfresh hpad] at hserve
    obtain ⟨k, t, hrun, hdriver, hS, hI, -⟩ := ((runsTo_zero s).step hserve).fold rfl
    rw [packBlock_zeroBytes] at hS
    exact ⟨k, t, hrun, by rw [hdriver]; rfl, by rw [hdriver]; rfl, by rw [hdriver], hS, hI⟩

end Sys2Proof.Machine
end

section
/-!
PROOFS. One trial of the search (spec/45_host_procedures.md R101 to R108): the sibling block, what the host does in each phase, the
boundary of the trial, and the run from its draws to that boundary.
-/

namespace Sys2Proof.Machine

/-! ### The sibling (R104) -/

section Sibling
variable (w : Vector Word 16)

/-- R104: the three words that the deltas change, and the others. -/
theorem sibling_getElem (j : Fin 16) :
    (sibling w)[j] =
      if j = 12 then w[12] - 0x00010000 else if j = 2 then w[2] + 0x70000000
      else if j = 1 then w[1] + 0x80000000 else w[j] := by
  show (((w.set (1 : Fin 16) _).set (2 : Fin 16) _).set (12 : Fin 16) _)[j] = _
  simp only [set_getElem_fin]

theorem sibling_getElem_ne_iff (j : Fin 16) : (sibling w)[j] ≠ w[j] ↔ j = 1 ∨ j = 2 ∨ j = 12 := by
  rw [sibling_getElem]
  split
  next h12 => simp [h12]
  next h12 =>
    split
    next h2 => simp [h2]
    next h2 =>
      split
      next h1 => simp [h1]
      next h1 => simp [h1, h2, h12]

/-- R104: the deltas are not zero, so a block is never its own sibling. -/
theorem sibling_ne : sibling w ≠ w := fun h => (sibling_getElem_ne_iff w 1).mpr (.inl rfl) (by rw [h])

end Sibling

/-- Settles O49: the three deltas are not zero, and a block is known by its bytes. -/
theorem siblingDiffersInThreeWords : Obligations.SiblingDiffersInThreeWords := by
  unfold Obligations.SiblingDiffersInThreeWords
  refine fun w => ⟨sibling_ne w, fun h => sibling_ne w ?_, sibling_getElem w 1, sibling_getElem w 2,
    sibling_getElem w 12, sibling_getElem_ne_iff w⟩
  rw [← packBlock_serializeBlock (sibling w), h, packBlock_serializeBlock]

/-! ### The boundary of a trial (R105, R107, R108) -/

/-- R107: a budget is reached when one is given and as many trials have failed. -/
theorem budgetReached_eq_true {budget : Option Nat} {failed : Nat} :
    budgetReached budget failed = true ↔ ∃ n, budget = some n ∧ n ≤ failed := by
  cases budget <;> simp [budgetReached]

section Boundary
variable (group : Option Nat) (b1 b2 : Vector Word 16) {h1 h2 : Vector Word 4} (js : List Job) (d : Driver)

theorem trialBoundary_of_eq (h : h1 = h2) :
    trialBoundary group b1 b2 h1 h2 js d = endSearch (.found b1 b2) js d := if_pos h

variable {d} (h : h1 ≠ h2)
include h

theorem trialBoundary_of_cancelled (hc : d.cancelAsked group = true) :
    trialBoundary group b1 b2 h1 h2 js d = endSearch .cancelled js d := by
  rw [trialBoundary, if_neg h, if_pos hc]

theorem trialBoundary_of_spent (hc : d.cancelAsked group = false) (hb : budgetReached d.trialBudget (d.trials + 1) = true) :
    trialBoundary group b1 b2 h1 h2 js d = endSearch .budgetSpent js d := by
  rw [trialBoundary, if_neg h, if_neg (by simp [hc]), if_pos hb]

theorem trialBoundary_of_failed (hc : d.cancelAsked group = false)
    (hb : budgetReached d.trialBudget (d.trials + 1) = false) :
    trialBoundary group b1 b2 h1 h2 js d = { d with phase := .generate, trials := d.trials + 1 } := by
  rw [trialBoundary, if_neg h, if_neg (by simp [hc]), if_neg (by simp [hb])]

end Boundary

/-- R105: the boundary issues no access and draws no word. -/
theorem trialBoundary_keeps (group : Option Nat) (b1 b2 : Vector Word 16) (h1 h2 : Vector Word 4) (js : List Job)
    (d : Driver) : (trialBoundary group b1 b2 h1 h2 js d).pending = d.pending ∧
      (trialBoundary group b1 b2 h1 h2 js d).rand = d.rand := by
  unfold trialBoundary
  split
  · exact ⟨rfl, rfl⟩
  · split
    · exact ⟨rfl, rfl⟩
    · split <;> exact ⟨rfl, rfl⟩

/-! ### The phases of a trial (R101 to R105) -/

/-- R101: the words that a trial draws. -/
theorem drawWords_of_rand {d : Driver} {u : Vector Word 16} {rest : List Word} (h : d.rand = u.toList ++ rest) :
    drawWords d = u := by
  apply vector_ext_fin
  intro j
  rw [drawWords, vec16_getElem, h, List.getD_append _ _ _ _ (by simp)]
  simp

section Phases
variable {s : State} {group : Option Nat} {js : List Job} (hp : s.driver.pending = [])
  (hj : s.driver.jobs = .find group :: js)
include hp hj

theorem step_generate (h : s.driver.phase = .generate) :
    step s = .next (s.setDriver
      { s.driver.serving with pending := [cmdAccess .seed], phase := .modify, result := none }) := by
  have hphase : s.driver.serving.phase = .generate := h
  simp only [step_find hp hj, findStep, hphase]

theorem step_modify {u : Vector Word 16} {rest : List Word} (h : s.driver.phase = .modify)
    (hrand : s.driver.rand = u.toList ++ rest) :
    step s = .next (s.setDriver
      { s.driver.serving with
        pending := loadWords u ++ modifyAccesses ++ readBlockAccesses, rand := rest, phase := .derive }) := by
  have hphase : s.driver.serving.phase = .modify := h
  have hdraw : drawWords s.driver.serving = u := drawWords_of_rand hrand
  have hrand' : s.driver.serving.rand = u.toList ++ rest := hrand
  have hleft : s.driver.serving.rand.drop 16 = rest := by rw [hrand', List.drop_left' (by simp)]
  have hlen : ¬ s.driver.serving.rand.length < 16 := by simp [hrand']
  simp only [step_find hp hj, findStep, hphase, if_neg hlen, hdraw, hleft]

theorem step_modify_of_few (h : s.driver.phase = .modify) (hrand : s.driver.rand.length < 16) :
    step s = .fault .randomnessExhausted := by
  have hphase : s.driver.serving.phase = .modify := h
  simp only [step_find hp hj, findStep, hphase]
  exact if_pos hrand

theorem step_derive (h : s.driver.phase = .derive) :
    step s = .next (s.setDriver
      { s.driver.serving with pending := verifyAccesses, phase := .rewrite s.driver.readBlock }) := by
  have hphase : s.driver.serving.phase = .derive := h
  simp only [step_find hp hj, findStep, hphase]
  rfl

theorem step_rewrite {b1 : Vector Word 16} (h : s.driver.phase = .rewrite b1) :
    step s = .next (s.setDriver
      { s.driver.serving with
        pending := rewriteAccesses (sibling b1) ++ verifyAccesses
        phase := .compare b1 (sibling b1) s.driver.readState }) := by
  have hphase : s.driver.serving.phase = .rewrite b1 := h
  simp only [step_find hp hj, findStep, hphase]
  rfl

theorem step_compare {b1 b2 : Vector Word 16} {h1 : Vector Word 4} (h : s.driver.phase = .compare b1 b2 h1) :
    step s = .next (s.setDriver (trialBoundary group b1 b2 h1 s.driver.readState js s.driver.serving)) := by
  have hphase : s.driver.serving.phase = .compare b1 b2 h1 := h
  simp only [step_find hp hj, findStep, hphase]
  rfl

end Phases

/-- Settles O50: the draws come before the first write. -/
theorem tooFewRandomWordsAbortTheSearch : Obligations.TooFewRandomWordsAbortTheSearch :=
  fun _ _ _ => step_modify_of_few

/-- Settles O52: the three ways in which the boundary of a failed trial goes on. -/
theorem failedTrialBoundary : Obligations.FailedTrialBoundary := by
  unfold Obligations.FailedTrialBoundary
  intro s group b1 b2 h1 js hp hj hphase hne
  refine ⟨_, step_compare hp hj hphase, fun hc => ?_, fun hc n hn hle => ?_, fun hc hb => ?_⟩
  · rw [trialBoundary_of_cancelled group b1 b2 js (d := s.driver.serving) hne hc]
    exact ⟨rfl, rfl⟩
  · rw [trialBoundary_of_spent group b1 b2 js (d := s.driver.serving) hne hc (budgetReached_eq_true.mpr ⟨n, hn, hle⟩)]
    exact ⟨rfl, rfl⟩
  · rw [trialBoundary_of_failed group b1 b2 js (d := s.driver.serving) hne hc (budgetReached_eq_false.mpr hb)]
    exact ⟨rfl, hj, rfl, hp, rfl⟩

/-! ### What the reads of a trial return (R103, R105) -/

/-- R105: after `RD S[0]`, ..., `RD S[3]`. -/
theorem readState_of_readLog {d : Driver} {s : State} {log : List Word}
    (h : d.readLog = (chainingRegs.map s.value).reverse ++ log) : d.readState = s.S := by
  apply vector_ext_fin
  intro n
  rw [Driver.readState, vec4_getElem, Driver.readAgo, h]
  fin_cases n <;> rfl

/-- R103: after `RD W[0]`, ..., `RD W[15]`. -/
theorem readBlock_of_readLog {d : Driver} {s : State} {log : List Word}
    (h : d.readLog = (messageRegs.map s.value).reverse ++ log) : d.readBlock = s.block := by
  apply vector_ext_fin
  intro j
  rw [Driver.readBlock, vec16_getElem, Driver.readAgo, h, State.block_getElem]
  fin_cases j <;> rfl

namespace State.runsTo
variable {s t : State} {k : Nat} (h : s.runsTo k t)
include h

/-- R105: the host then reads S. -/
theorem readState (hp : t.driver.pending = chainingRegs.map rdAccess) :
    ∃ log, s.runsTo (k + 4) (t.setDriver { t.driver with pending := [], readLog := log }) ∧
      ∀ d : Driver, d.readLog = log → d.readState = t.S :=
  have hreads : t.driver.pending = chainingRegs.map rdAccess ++ [] := hp
  ⟨_, runsTo_trans h (runsTo_reads (chainingRegs_written t) hreads), fun _ => readState_of_readLog⟩

/-- R103: the host then reads the block in W. -/
theorem readBlock (hp : t.driver.pending = readBlockAccesses) (hW : ∀ j : Fin 16, t.W[j].written = true) :
    ∃ log, s.runsTo (k + 16) (t.setDriver { t.driver with pending := [], readLog := log }) ∧
      ∀ d : Driver, d.readLog = log → d.readBlock = t.block :=
  have hmarks : ∀ r ∈ messageRegs, t.written r = true := List.forall_mem_map.mpr fun j _ => hW j
  have hreads : t.driver.pending = messageRegs.map rdAccess ++ [] := hp
  ⟨_, runsTo_trans h (runsTo_reads hmarks hreads), fun _ => readBlock_of_readLog⟩

/-- R105: the host then compresses I with the block in W, and reads the result. -/
theorem verify (hp : t.driver.pending = verifyAccesses) (hW : ∀ j : Fin 16, t.W[j].written = true) :
    ∃ k' u, s.runsTo k' u ∧ u.I = t.I ∧ u.W = t.W ∧
      u.driver = { t.driver with pending := [], readLog := u.driver.readLog } ∧
      u.driver.readState = compress t.I t.block := by
  have hcompress : exec .compress (t.setChain t.I) = .next ((t.setChain t.I).setChain (compress t.I t.block)) :=
    exec_compress_of_written hW
  have hcommands : runCommands [.seed, .compress] t = .next ((t.setChain t.I).setChain (compress t.I t.block)) :=
    runCommands_cons.mpr ⟨_, exec_seed t, runCommands_cons.mpr ⟨_, hcompress, rfl⟩⟩
  obtain ⟨c, hrun⟩ := h.commands (is := [.seed, .compress]) (rest := chainingRegs.map rdAccess) (by decide) hp hcommands
  obtain ⟨log, hread, hstate⟩ := hrun.readState rfl
  exact ⟨_, _, hread, rfl, rfl, rfl, hstate _ rfl⟩

/-- R105 step 2: with a block in W, the three rewritten words make it its sibling. -/
theorem rewriteWords {rest : List Access} (hp : t.driver.pending = rewriteAccesses (sibling t.block) ++ rest)
    (hW : ∀ j : Fin 16, t.W[j].written = true) :
    ∃ u, s.runsTo (k + 3) u ∧ u.I = t.I ∧ u.driver = { t.driver with pending := rest } ∧
      u.block = sibling t.block ∧ ∀ j : Fin 16, u.W[j].written = true := by
  have hrun := runsTo_trans h (runsTo_wordWrites (sibling t.block) [1, 2, 12] rest t hp)
  have hword : ∀ j : Fin 16,
      (([1, 2, 12] : List (Fin 16)).foldl (fun t' j => t'.setW j (sibling t.block)[j]) t).W[j] =
        .of (sibling t.block)[j] := by
    intro j
    rw [foldl_setW, foldl_setW_getElem]
    split
    next => rfl
    next hj =>
      obtain ⟨h1, h2, h12⟩ : ¬ j = 1 ∧ ¬ j = 2 ∧ ¬ j = 12 := by simpa using hj
      rw [sibling_getElem, if_neg h12, if_neg h2, if_neg h1, State.block_getElem]
      exact Marked.eq_of_written (hW j)
  refine ⟨_, hrun, by rw [foldl_setW]; rfl, by rw [foldl_setW]; rfl, vector_ext_fin fun j => ?_, fun j => ?_⟩
  · rw [State.block_getElem]
    exact congrArg Marked.val (hword j)
  · exact congrArg Marked.written (hword j)

end State.runsTo

/-! ### The run of a trial (R101 to R105) -/

/-- R101 to R107: what the host's side `e` that comes to the boundary of a trial has of the host's side `d` that began it, with
`rest` left of the random words. -/
structure Driver.TrialKeeps (rest : List Word) (d e : Driver) : Prop where
  pending : e.pending = []
  jobs    : e.jobs = d.jobs
  rand    : e.rand = rest
  result  : e.result = none
  budget  : e.trialBudget = d.trialBudget
  trials  : e.trials = d.trials
  asked   : e.cancelRequests = d.cancelRequests

section Trial
variable {s : State} {group : Option Nat} {js : List Job} (hp : s.driver.pending = [])
  (hj : s.driver.jobs = .find group :: js)
include hp hj

/-- R101: the trial starts S from I. -/
theorem runsTo_seed (hphase : s.driver.phase = .generate) :
    ∃ c, s.runsTo 2 ((s.setChain s.I).withHost c
      { s.driver with pending := [], inProgram := false, phase := .modify, result := none }) := by
  have hseed : ∀ t : State, runCommands [.seed] t = .next (t.setChain t.I) :=
    fun t => runCommands_cons.mpr ⟨_, exec_seed t, rfl⟩
  have hgenerate := (runsTo_zero s).step (step_generate hp hj hphase)
  obtain ⟨c, hrun⟩ := hgenerate.commands (is := [.seed]) (rest := []) (by decide) rfl (hseed _)
  exact ⟨c, hrun⟩

/-- R101, R102, R103: the trial makes block1 of the words it draws, and reads it back. -/
theorem runsTo_block1 {u : Vector Word 16} {rest : List Word} {m : State} (hphase : s.driver.phase = .generate)
    (hrand : s.driver.rand = u.toList ++ rest)
    (hm : runCommands [.r1All, .a5Correct, .d5Correct] ((s.setChain s.I).withBlock u) = .next m) :
    ∃ k t, s.runsTo k t ∧ t.I = m.I ∧ t.W = m.W ∧
      t.driver = { s.driver with
        pending := [], inProgram := false, phase := .derive, rand := rest, result := none,
        readLog := t.driver.readLog } ∧
      t.driver.readBlock = m.block := by
  obtain ⟨c, hseed⟩ := runsTo_seed hp hj hphase
  have hmodify := hseed.step (step_modify rfl (by exact hj) rfl (by exact hrand))
  have hload := hmodify.loadWords (List.append_assoc ..)
  have hhost : ∀ (t : State) (d : Driver) (q : List Access), ((t.withHost c d).withBlock u).queued q =
      (t.withBlock u).withHost c { d with pending := q } := fun _ _ _ => rfl
  rw [State.withHost_setDriver, hhost] at hload
  obtain ⟨c', hphase⟩ := hload.commands (is := [.r1All, .a5Correct, .d5Correct]) (rest := readBlockAccesses)
    (by decide) rfl (runCommands_withHost (by decide) hm c _)
  have hW : ∀ j : Fin 16, m.W[j].written = true := fun j =>
    (runCommands_keeps_init (by decide) hm).2 (.w j) (State.withBlock_written _ u j)
  obtain ⟨log, hread, hblock⟩ := hphase.readBlock rfl hW
  rw [State.withHost_setDriver, State.withHost_withHost] at hread
  rw [State.withHost_withHost, State.withHost_block] at hblock
  exact ⟨_, _, hread, rfl, rfl, rfl, hblock _ rfl⟩

/-- R103, R104, R105: the trial compresses I with block1, and with its sibling. -/
theorem runsTo_compare (hphase : s.driver.phase = .derive) (hblock : s.driver.readBlock = s.block)
    (hW : ∀ j : Fin 16, s.W[j].written = true) :
    ∃ k t, s.runsTo k t ∧ t.I = s.I ∧
      t.driver = { s.driver with
        pending := [], inProgram := false, phase := .compare s.block (sibling s.block) (compress s.I s.block),
        readLog := t.driver.readLog } ∧
      t.driver.readState = compress s.I (sibling s.block) := by
  have hderive := step_derive hp hj hphase
  rw [hblock] at hderive
  obtain ⟨k, t, hrun, hI, hWt, hdriver, hstate⟩ := ((runsTo_zero s).step hderive).verify rfl hW
  have hblockt : t.block = s.block := State.block_congr hWt
  have hrewrite := hrun.step (step_rewrite (js := js) (b1 := s.block) (by rw [hdriver]) (by rw [hdriver]; exact hj)
    (by rw [hdriver]; rfl))
  rw [hstate] at hrewrite
  obtain ⟨v, hwords, hIv, hdriverv, hblockv, hWv⟩ := hrewrite.rewriteWords
    (show rewriteAccesses (sibling s.block) ++ verifyAccesses = rewriteAccesses (sibling t.block) ++ verifyAccesses by
      rw [hblockt]) (hWt ▸ hW)
  obtain ⟨k', u, hfinal, hIu, -, hdriveru, hstateu⟩ := hwords.verify (by rw [hdriverv]) hWv
  have hinit : v.I = s.I := hIv.trans hI
  refine ⟨k', u, hfinal, hIu.trans hinit, ?_, ?_⟩
  · rw [hdriveru, hdriverv, State.setDriver_driver, Driver.serving, hdriver]
    rfl
  · rw [hstateu, hblockv, hinit]
    exact congrArg (fun b => compress s.I (sibling b)) hblockt

/-- R101 to R105: a trial that makes block1 of its draws compares the compressions of block1 and its sibling from I. -/
theorem runsTo_boundary {u : Vector Word 16} {rest : List Word} {m : State} (hphase : s.driver.phase = .generate)
    (hrand : s.driver.rand = u.toList ++ rest)
    (hm : runCommands [.seed, .r1All, .a5Correct, .d5Correct] (s.withBlock u) = .next m) :
    ∃ k t d, s.runsTo k t ∧ t.I = s.I ∧ s.driver.TrialKeeps rest d ∧
      t.driver = trialBoundary group m.block (sibling m.block) (compress s.I m.block) (compress s.I (sibling m.block)) js
        d := by
  obtain ⟨hmI, hmarks⟩ := runCommands_keeps_init (by decide) hm
  have hmW : ∀ j : Fin 16, m.W[j].written = true := fun j => hmarks (.w j) (s.withBlock_written u j)
  obtain ⟨_, hseed, hmodified⟩ := runCommands_cons.mp hm
  obtain rfl := Host.Outcome.next.inj ((exec_seed _).symm.trans hseed)
  obtain ⟨k, t, hrun, htI, htW, hdriver, hread⟩ := runsTo_block1 hp hj hphase hrand hmodified
  have hblock : t.block = m.block := State.block_congr htW
  have hinit : t.I = s.I := htI.trans hmI
  have htWritten : ∀ j : Fin 16, t.W[j].written = true := fun j => htW ▸ hmW j
  obtain ⟨k', v, hcompare, hvI, hvdriver, hstate⟩ := runsTo_compare (s := t) (group := group) (js := js)
    (by rw [hdriver]) (by rw [hdriver]; exact hj) (by rw [hdriver]) (hread.trans hblock.symm) htWritten
  have hboundary := step_compare (s := v) (group := group) (js := js) (by rw [hvdriver])
    (by rw [hvdriver, hdriver]; exact hj) (by rw [hvdriver])
  refine ⟨_, _, v.driver.serving, (runsTo_trans hrun hcompare).step hboundary, ?_, ?_, ?_⟩
  · rw [State.setDriver_I, hvI, hinit]
  · rw [hvdriver, hdriver]
    exact ⟨rfl, rfl, rfl, rfl, rfl, rfl, rfl⟩
  · rw [State.setDriver_driver, hstate, hblock, hinit]

end Trial

/-- Settles O51: the run to the boundary makes both blocks and compares their compressions, and the boundary decides. -/
theorem trialReturnsExactlyTheCollisions : Obligations.TrialReturnsExactlyTheCollisions := by
  unfold Obligations.TrialReturnsExactlyTheCollisions
  intro s group u rest js hp hj hphase hrand ended
  obtain ⟨m, hm⟩ : ∃ m, runCommands [.seed, .r1All, .a5Correct, .d5Correct] (s.withBlock u) = .next m :=
    ⟨_, runCommands_modificationPhase (s.withBlock_written u)⟩
  obtain ⟨k, t, d, hrun, hI, hkept, hdriver⟩ := runsTo_boundary hp hj hphase hrand hm
  have hasked : d.cancelAsked group = s.driver.cancelAsked group := by
    simp only [Driver.cancelAsked, hkept.asked]
  have hbudget : budgetReached d.trialBudget (d.trials + 1) = true ↔
      ∃ n, s.driver.trialBudget = some n ∧ n ≤ s.driver.trials + 1 := by
    rw [hkept.budget, hkept.trials, budgetReached_eq_true]
  obtain ⟨hpending, hleft⟩ := trialBoundary_keeps group m.block (sibling m.block) (compress s.I m.block)
    (compress s.I (sibling m.block)) js d
  rw [← hdriver] at hpending hleft
  refine ⟨k, m, t, hrun, hI, hpending.trans hkept.pending, hleft.trans hkept.rand, hm, fun hcollide => ?_,
    fun hne hended => ?_, fun hne hgoes => ?_⟩
  · rw [hdriver, trialBoundary_of_eq _ _ _ _ _ hcollide]
    exact ⟨rfl, rfl⟩
  · cases hc : d.cancelAsked group with
    | true =>
      rw [hdriver, trialBoundary_of_cancelled _ _ _ _ hne hc]
      exact ⟨.inl rfl, rfl⟩
    | false =>
      have hspent := hbudget.mpr (hended.resolve_left (by simp [← hasked, hc]))
      rw [hdriver, trialBoundary_of_spent _ _ _ _ hne hc hspent]
      exact ⟨.inr rfl, rfl⟩
  · obtain ⟨hc, hb⟩ := not_or.mp hgoes
    rw [hdriver, trialBoundary_of_failed _ _ _ _ hne (Bool.eq_false_iff.mpr (hasked ▸ hc))
      (Bool.eq_false_iff.mpr (mt hbudget.mp hb))]
    exact ⟨hkept.result, hkept.jobs.trans hj, rfl, congrArg (· + 1) hkept.trials⟩

end Sys2Proof.Machine
end

section
/-!
PROOFS. The host on the platform (spec/45_host_procedures.md R108, R110): parallel searches, from the shared init to the first
success, and caller-layer faults.
-/

namespace Sys2Proof.Machine

/-! ### A parallel search begins (R108) -/

/-- R15: the four words of I, written one by one. -/
theorem set_four_words (x y : Vector Word 4) :
    (((y.set (0 : Fin 4) x[0]).set (1 : Fin 4) x[1]).set (2 : Fin 4) x[2]).set (3 : Fin 4) x[3] = x := by
  apply vector_ext_fin
  intro n
  simp only [set_getElem_fin]
  fin_cases n <;> rfl

/-- R108: a host that writes the shared init has it in I afterwards, and every other register as before. -/
theorem runsTo_writeInit {s : State} {init : Vector Word 4} {js : List Job} (hp : s.driver.pending = [])
    (hj : s.driver.jobs = .writeInit init :: js) :
    s.runsTo 5 { s with I := init, driver := { s.driver.serving with pending := [], jobs := js } } := by
  have hserve := (runsTo_zero s).step (step_writeInit hp hj)
  have h0 := hserve.step (step_of_write (r := .i 0) (v := init[0]) rfl)
  have h1 := h0.step (step_of_write (r := .i 1) (v := init[1]) rfl)
  have h2 := h1.step (step_of_write (r := .i 2) (v := init[2]) rfl)
  have h3 := h2.step (step_of_write (r := .i 3) (v := init[3]) rfl)
  have hinit := set_four_words init s.I
  rw [← hinit]
  exact h3

/-- R108: which workers a search asks, and for what. -/
theorem search_getElem (members : List Nat) (init : Vector Word 4) (p : Platform) (n : Nat) :
    (p.search members init).workers[n]? =
      p.workers[n]?.map fun w => if n ∈ members then w.joinSearch p.searches.length init else w := by
  simp [Platform.search, List.getElem?_mapIdx]

theorem platform_step_search {p : Platform} {members : List Nat} {init : Vector Word 4} {rest : List PlatformEvent}
    (h : p.schedule = .search members init :: rest) :
    p.step = .next (Platform.search members init { p with schedule := rest }) := by
  rw [Platform.step, h]

/-- Settles O57: the event puts the two requests behind those of each of its workers, and the first is served by four writes. -/
theorem parallelSearchSharesItsInit : Obligations.ParallelSearchSharesItsInit := by
  unfold Obligations.ParallelSearchSharesItsInit
  refine ⟨fun p members init rest hsched => ?_, fun s init js hp hj => ⟨5, _, runsTo_writeInit hp hj, rfl, rfl⟩⟩
  have hworkers := search_getElem members init { p with schedule := rest }
  refine ⟨_, platform_step_search hsched, rfl, fun n hn => ?_, fun n w hn hw => ?_⟩
  · rw [hworkers n]
    simp [hn]
  · refine ⟨w.joinSearch p.searches.length init, ?_, rfl, rfl⟩
    rw [hworkers n]
    simp [hw, hn]

/-! ### The first success (R108) -/

theorem platform_step_move {p : Platform} {k : Nat} {rest : List PlatformEvent} (h : p.schedule = .move k :: rest) :
    p.step = Platform.move k { p with schedule := rest } := by
  rw [Platform.step, h]

/-- R108: the settling of the first success of a search. -/
theorem settle_of_first {p : Platform} {g k : Nat} {x : ParallelSearch} {init : Vector Word 4}
    (pair : Vector Word 16 × Vector Word 16) (hx : p.searches[g]? = some x)
    (hfirst : x.result = none ∧ k ∈ x.members ∧ init = x.init) :
    p.settle g k init pair =
      { p with
        workers := cancelOthers g k x.members p.workers
        searches := p.searches.set g { x with result := some (k, pair) } } := by
  simp only [Platform.settle, hx, if_pos hfirst]

/-- R117: a move of a worker whose step found a pair. -/
theorem move_of_found {p : Platform} {k g : Nat} {w : Worker} {s' : State} {pair : Vector Word 16 × Vector Word 16}
    (hw : p.workers[k]? = some w) (hs : Sys2Proof.Machine.step w.state = .next s')
    (hf : justFound w.state s' = some (g, pair)) :
    p.move k =
      .next (Platform.settle g k s'.I pair { p with workers := p.workers.set k { w with state := s' } }) := by
  simp only [Platform.move, hw, hs, hf]

/-- R105, R108: a trial of a parallel search whose two compressions are equal finds its pair. -/
theorem step_finds {s : State} {g : Nat} {js : List Job} {b1 b2 : Vector Word 16} {h1 : Vector Word 4}
    (hp : s.driver.pending = []) (hj : s.driver.jobs = .find (some g) :: js) (hnone : s.driver.result = none)
    (hphase : s.driver.phase = .compare b1 b2 h1) (heq : h1 = s.driver.readState) :
    ∃ s', step s = .next s' ∧ s'.I = s.I ∧ justFound s s' = some (g, b1, b2) := by
  refine ⟨_, step_compare hp hj hphase, rfl, ?_⟩
  rw [trialBoundary_of_eq _ _ _ _ _ heq]
  simp only [justFound, hj, hnone, State.setDriver_driver, endSearch]

/-- Settles O56: the worker's step finds the pair, and settling it cancels the search for the other workers. -/
theorem firstSuccessSuppliesTheResult : Obligations.FirstSuccessSuppliesTheResult := by
  unfold Obligations.FirstSuccessSuppliesTheResult
  intro p k g rest w x js b1 b2 h1 hsched hw hp hj hnone hphase heq hx hfirst hk hinit
  obtain ⟨s', hs, hI, hf⟩ := step_finds hp hj hnone hphase heq
  have hmove := (platform_step_move hsched).trans (move_of_found hw hs hf)
  rw [hI, settle_of_first (b1, b2) (by exact hx) ⟨hfirst, hk, hinit⟩] at hmove
  have hlt : g < p.searches.length := (List.getElem?_eq_some_iff.mp hx).1
  have hothers : ∀ n, n ≠ k → (p.workers.set k { w with state := s' })[n]? = p.workers[n]? :=
    fun n hn => List.getElem?_set_ne hn.symm
  refine ⟨_, hmove, List.getElem?_set_self hlt, fun g' hg => List.getElem?_set_ne hg.symm, fun n v hn hv hmem => ?_,
    fun n hn hmem => ?_⟩
  · refine ⟨v.requestCancel g, ?_, by simp [Worker.requestCancel]⟩
    rw [cancelOthers_getElem, hothers n hn, hv]
    simp [hn, hmem]
  · rw [cancelOthers_getElem, hothers n hn]
    simp [hmem]

/-! ### Caller-layer faults (R110) -/

/-- R110: from a fault on, the machine stays as it is. -/
theorem runsTo_of_faulted {s : State} (h : s.driver.faulted = true) (k : Nat) : s.runsTo k s := by
  induction k with
  | zero => exact runsTo_zero s
  | succ k ih => exact ih.step (step_of_faulted h)

/-- R110: what an event leaves of a worker whose host has faulted: its BASE, the fault, and all of its block. -/
structure Worker.StaysFaulted (w w' : Worker) : Prop where
  base    : w'.base = w.base
  faulted : w'.state.driver.faulted = true
  block   : ∃ d, w'.state = w.state.setDriver d

namespace Worker.StaysFaulted
variable {w : Worker} (h : w.state.driver.faulted = true)
include h

theorem refl : w.StaysFaulted w := ⟨rfl, h, w.state.driver, rfl⟩

theorem requestCancel (g : Nat) : w.StaysFaulted (w.requestCancel g) := ⟨rfl, h, _, rfl⟩

theorem joinSearch (g : Nat) (init : Vector Word 4) : w.StaysFaulted (w.joinSearch g init) :=
  ⟨rfl, faulted_addJobs h _, _, rfl⟩

end Worker.StaysFaulted

/-- R110: a fault that comes touches no register. -/
theorem Worker.staysFaulted_fail (w : Worker) :
    w.StaysFaulted { w with state := w.state.setDriver w.state.driver.fail } := ⟨rfl, fail_faulted _, _, rfl⟩

section Faulted
variable {p q : Platform} {n : Nat} {w : Worker} (hn : p.workers[n]? = some w) (h : w.state.driver.faulted = true)
include hn h

theorem settle_staysFaulted (g k : Nat) (init : Vector Word 4) (pair : Vector Word 16 × Vector Word 16) :
    ∃ w', (p.settle g k init pair).workers[n]? = some w' ∧ w.StaysFaulted w' := by
  rcases settle_cases g k init pair p with hsame | ⟨x, -, -, -, -, hsettled⟩
  · rw [hsame]
    exact ⟨w, hn, .refl h⟩
  · rw [hsettled]
    simp only [cancelOthers_getElem, hn, Option.map_some]
    refine ⟨_, rfl, ?_⟩
    split
    next => exact .requestCancel h g
    next => exact .refl h

/-- R110: a move of the faulted worker itself leaves its machine, and a move of another does not touch it. -/
theorem set_keeps_faulted {k : Nat} {v : Worker} {s' : State} (hk : p.workers[k]? = some v)
    (hs : Sys2Proof.Machine.step v.state = .next s') : (p.workers.set k { v with state := s' })[n]? = some w := by
  by_cases hkn : k = n
  · subst hkn
    obtain rfl : v = w := Option.some.inj (hk.symm.trans hn)
    obtain rfl : v.state = s' := Host.Outcome.next.inj ((step_of_faulted h).symm.trans hs)
    rw [List.getElem?_set_self (List.getElem?_eq_some_iff.mp hn).1]
  · rw [List.getElem?_set_ne hkn, hn]

theorem move_staysFaulted {k : Nat} (hq : p.move k = .next q) : ∃ w', q.workers[n]? = some w' ∧ w.StaysFaulted w' := by
  obtain ⟨-, rfl⟩ | ⟨v, s', hk, hs, hcase⟩ := move_next hq
  · exact ⟨w, hn, .refl h⟩
  · have hset := set_keeps_faulted hn h hk hs
    obtain ⟨-, rfl⟩ | ⟨g, pair, -, rfl⟩ := hcase
    · exact ⟨w, hset, .refl h⟩
    · exact settle_staysFaulted (p := { p with workers := p.workers.set k { v with state := s' } }) hset h g k s'.I pair

theorem ioFault_staysFaulted (k : Nat) : ∃ w', (p.ioFault k).workers[n]? = some w' ∧ w.StaysFaulted w' := by
  simp only [Platform.ioFault, List.getElem?_modify, hn, Option.map_eq_map, Option.map_some]
  refine ⟨_, rfl, ?_⟩
  split
  next => exact w.staysFaulted_fail
  next => exact .refl h

theorem search_staysFaulted (members : List Nat) (init : Vector Word 4) :
    ∃ w', (p.search members init).workers[n]? = some w' ∧ w.StaysFaulted w' := by
  simp only [search_getElem, hn, Option.map_some]
  refine ⟨_, rfl, ?_⟩
  split
  next => exact .joinSearch h p.searches.length init
  next => exact .refl h

/-- R119: a reset of another worker does not touch this one. -/
theorem reset_staysFaulted {k : Nat} (hk : k ≠ n) : ∃ w', (p.reset k).workers[n]? = some w' ∧ w.StaysFaulted w' := by
  simp only [Platform.reset, List.getElem?_modify, hn, Option.map_eq_map, Option.map_some, if_neg hk]
  exact ⟨w, rfl, .refl h⟩

/-- R110: no event but the reset of its own block touches the block of a faulted host, and none ends the fault. -/
theorem platform_step_staysFaulted (hq : p.step = .next q) (hreset : p.schedule.head? ≠ some (.reset n)) :
    ∃ w', q.workers[n]? = some w' ∧ w.StaysFaulted w' := by
  cases hsched : p.schedule with
  | nil =>
    simp only [Platform.step, hsched] at hq
    cases hq
    exact ⟨w, hn, .refl h⟩
  | cons e rest =>
    simp only [Platform.step, hsched] at hq
    cases e with
    | move k => exact move_staysFaulted (p := { p with schedule := rest }) hn h hq
    | reset k =>
      cases hq
      have hk : k ≠ n := fun hkn => hreset (by rw [hsched, hkn]; rfl)
      exact reset_staysFaulted (p := { p with schedule := rest }) hn h hk
    | ioFault k =>
      cases hq
      exact ioFault_staysFaulted (p := { p with schedule := rest }) hn h k
    | search members init =>
      cases hq
      exact search_staysFaulted (p := { p with schedule := rest }) hn h members init

end Faulted

theorem platform_step_reset {p : Platform} {k : Nat} {rest : List PlatformEvent} (h : p.schedule = .reset k :: rest) :
    p.step = .next (Platform.reset k { p with schedule := rest }) := by
  rw [Platform.step, h]

theorem platform_step_ioFault {p : Platform} {k : Nat} {rest : List PlatformEvent} (h : p.schedule = .ioFault k :: rest) :
    p.step = .next (Platform.ioFault k { p with schedule := rest }) := by
  rw [Platform.step, h]

/-- R110, R119: nor does that reset end the fault. -/
theorem platform_step_keeps_fault {p q : Platform} {n : Nat} {w : Worker} (hn : p.workers[n]? = some w)
    (h : w.state.driver.faulted = true) (hq : p.step = .next q) :
    ∃ w', q.workers[n]? = some w' ∧ w'.base = w.base ∧ w'.state.driver.faulted = true ∧
      (p.schedule.head? ≠ some (.reset n) → ∃ d, w'.state = w.state.setDriver d) := by
  by_cases hreset : p.schedule.head? = some (.reset n)
  · obtain ⟨rest, hsched⟩ := List.head?_eq_some_iff.mp hreset
    rw [platform_step_reset hsched] at hq
    cases hq
    refine ⟨{ w with state := resetBlock w.state }, ?_, rfl, h, fun hne => absurd hreset hne⟩
    simp only [Platform.reset, List.getElem?_modify, hn, Option.map_eq_map, Option.map_some, if_pos]
  · obtain ⟨w', hw', hstays⟩ := platform_step_staysFaulted hn h hq hreset
    exact ⟨w', hw', hstays.base, hstays.faulted, fun _ => hstays.block⟩

/-- Settles O53: the request that records the fault stays the first, and only a reset writes registers without the host. -/
theorem hostFaultEndsItsAccesses : Obligations.HostFaultEndsItsAccesses := by
  unfold Obligations.HostFaultEndsItsAccesses
  refine ⟨fun s h => ⟨(faulted_iff.mp h).1, runsTo_of_faulted h⟩, fun s js hp hj => faulted_iff.mpr ⟨hp, js, hj⟩,
    fun p k rest hsched => ?_, fun p q n w hq hn h => platform_step_keeps_fault hn h hq⟩
  refine ⟨_, platform_step_ioFault hsched, rfl, rfl, fun n hn => ?_, fun w hw => ?_⟩
  · simp [Platform.ioFault, hn.symm]
  · refine ⟨{ w with state := w.state.setDriver w.state.driver.fail }, w.state.driver.fail, ?_, rfl, rfl, fail_faulted _⟩
    simp [Platform.ioFault, hw]

end Sys2Proof.Machine
end

section
/-!
PROOFS. The statements of spec/60_exceptions.md: IllegalCommand and the life of CMD (R112), the one way a command can stop
(R111, R113), and the step of one worker on a platform of several (R117).
-/

namespace Sys2Proof.Machine

/-! ### IllegalCommand (R112) -/

/-- R21: no command writes CMD. -/
theorem cmd_notMem_writes (i : Instr) : .cmd ∉ writes i := by
  cases i <;> simp [writes]

/-- R112: the access at CMD's offset takes IllegalCommand when the word is not decoded. -/
theorem step_of_illegalWord {c : Word} {rest : List Access} {s : State}
    (hp : s.driver.pending = .write 32 0x00 c :: rest) (hd : decode c = none) :
    step s = .next (raiseIllegalCommand c (s.queued rest)) := by
  rw [step_of_write (r := .cmd) hp]
  simp only [hostWrite, runCommand, hd]

/-- R21: a step leaves CMD, or it is a write to CMD, which then holds the word written, legal or not. -/
theorem StepCase.CMD_cases {s t : State} (h : StepCase s t) :
    t.CMD = s.CMD ∨ ∃ c rest, s.driver.pending = .write 32 0x00 c :: rest ∧ t.CMD = c := by
  cases h with
  | quiet d ht => exact .inl (ht ▸ rfl)
  | illegal c rest hp _ ht => exact .inr ⟨c, rest, hp, ht ▸ rfl⟩
  | command c i rest hp hd he =>
    exact .inr ⟨c, rest, hp, (exec_changes (decode_wf hd) he).value .cmd (cmd_notMem_writes i)⟩
  | status v rest _ ht =>
    rw [ht, writeStatus_eq]
    exact .inl rfl
  | data r v rest _ hcmd _ hc => exact .inl (hc.value .cmd (by simpa using hcmd.symm))

/-- Settles O8: the illegal write is `raiseIllegalCommand`, and of the ways a step can treat CMD only a CMD write changes it. -/
theorem illegalWordTakesIllegalCommand : Obligations.IllegalWordTakesIllegalCommand := by
  unfold Obligations.IllegalWordTakesIllegalCommand
  exact ⟨fun _ _ _ => step_of_illegalWord, fun _ _ h => ⟨rfl, (stepCase_of_step h).CMD_cases.resolve_left⟩⟩

/-! ### The one way a command can stop (R111, R113) -/

/-- R23: written registers at the head of the list do not matter to the check. -/
theorem requireWritten_append_of_written {rs rs' : List Reg} {s : State} (h : ∀ r ∈ rs, s.written r = true) (t : State) :
    requireWritten (rs ++ rs') s t = requireWritten rs' s t := by
  have hsame : s.unwritten (rs ++ rs') = s.unwritten rs' := by
    rw [State.unwritten, List.filter_append, ← State.unwritten, ← State.unwritten, unwritten_eq_nil.mpr h, List.nil_append]
  simp only [requireWritten, hsame]

/-- R26 (4), R121: S and I are never unwritten, so the check before a command is that of the registers it needs. -/
theorem exec_eq_check_needs (i : Instr) (s : State) : ∃ t, exec i s = requireWritten (needs i) s t := by
  cases i with
  | nop => exact ⟨s, rfl⟩
  | loadIv | ctLookupR1 _ => exact ⟨_, rfl⟩
  | ctLookupA5 j | ctLookupD5 j =>
    simp only [exec, execCtLookupA5, execCtLookupD5]
    split
    next => exact ⟨_, rfl⟩
    next => exact ⟨_, rfl⟩
  | seed => exact ⟨_, exec_seed s⟩
  | capture => exact ⟨_, exec_capture s⟩
  | fwdF _ | fwdG _ | fwdH _ | invF _ | invG _ | invH _ => exact ⟨_, rfl⟩
  | ctApplyR1 _ | ctApplyA5 | ctApplyD5 => exact ⟨_, rfl⟩
  | compress | r1Step _ | r1All | d5Correct => exact ⟨_, requireWritten_append_of_written (chainingRegs_written s) _⟩
  | a5Correct =>
    have hSI : ∀ r ∈ chainingRegs ++ initRegs, s.written r = true :=
      List.forall_mem_append.mpr ⟨chainingRegs_written s, initRegs_written s⟩
    exact ⟨_, requireWritten_append_of_written hSI _⟩

/-- Settles O17: a command is the check of what it needs, and that check completes or names its unwritten registers. -/
theorem commandsOnlyFaultOnUnwritten : Obligations.CommandsOnlyFaultOnUnwritten := by
  unfold Obligations.CommandsOnlyFaultOnUnwritten
  intro i s
  obtain ⟨t, h⟩ := exec_eq_check_needs i s
  obtain hnext | ⟨hfault, hne⟩ := requireWritten_cases (needs i) s t
  · exact .inl ⟨t, h.trans hnext⟩
  · exact .inr ⟨_, h.trans hfault, hne, fun r => mem_unwritten.mp⟩

/-! ### A step of the platform moves one worker (R117) -/

/-- R108, R117: what the move of another worker leaves of worker number `n`: it is as it was, or it is asked to cancel its
part of one of the searches `xs` of which it is a worker. -/
def Worker.AtMostAsked (xs : List ParallelSearch) (n : Nat) (w w' : Worker) : Prop :=
  w' = w ∨ ∃ g x, xs[g]? = some x ∧ n ∈ x.members ∧ w' = w.requestCancel g

/-- R108: a worker that is at most asked to cancel differs in its cancellation requests alone. -/
theorem Worker.AtMostAsked.requests {xs : List ParallelSearch} {n : Nat} {w w' : Worker} (h : w.AtMostAsked xs n w') :
    ∃ l, w'.base = w.base ∧
      w'.state = { w.state with driver := { w.state.driver with cancelRequests := l } } ∧
      (l = w.state.driver.cancelRequests ∨
        ∃ g x, xs[g]? = some x ∧ n ∈ x.members ∧ l = g :: w.state.driver.cancelRequests) := by
  obtain rfl | ⟨g, x, hx, hn, rfl⟩ := h
  · exact ⟨_, rfl, rfl, .inl rfl⟩
  · exact ⟨_, rfl, rfl, .inr ⟨g, x, hx, hn, rfl⟩⟩

section Settle
variable (g k : Nat) (init : Vector Word 4) (pair : Vector Word 16 × Vector Word 16) (p : Platform)

theorem settle_schedule : (p.settle g k init pair).schedule = p.schedule := by
  obtain h | ⟨x, -, -, -, -, h⟩ := settle_cases g k init pair p <;> rw [h]

/-- R108: the worker that succeeded is not asked to cancel. -/
theorem settle_getElem_self : (p.settle g k init pair).workers[k]? = p.workers[k]? := by
  obtain h | ⟨x, -, -, -, -, h⟩ := settle_cases g k init pair p
  · rw [h]
  · rw [h, cancelOthers_getElem]
    simp

/-- R108: only workers of the search are asked to cancel it. -/
theorem settle_atMostAsked {n : Nat} {w : Worker} (hw : p.workers[n]? = some w) :
    ∃ w', (p.settle g k init pair).workers[n]? = some w' ∧ w.AtMostAsked p.searches n w' := by
  obtain h | ⟨x, hx, -, -, -, h⟩ := settle_cases g k init pair p
  · exact ⟨w, by rwa [h], .inl rfl⟩
  · rw [h, cancelOthers_getElem, hw, Option.map_some]
    refine ⟨_, rfl, ?_⟩
    split
    next hn => exact .inr ⟨g, x, hx, hn.2, rfl⟩
    next => exact .inl rfl

end Settle

section Move
variable {p q : Platform} {k : Nat} (hq : p.move k = .next q)
include hq

theorem move_schedule : q.schedule = p.schedule := by
  obtain ⟨-, rfl⟩ | ⟨w, s', -, -, ⟨-, rfl⟩ | ⟨g, pair, -, rfl⟩⟩ := move_next hq
  · rfl
  · rfl
  · rw [settle_schedule]

/-- R117: the worker that moves takes a step of its own. -/
theorem move_steps {w : Worker} (hw : p.workers[k]? = some w) :
    ∃ w', q.workers[k]? = some w' ∧ w'.base = w.base ∧ step w.state = .next w'.state := by
  obtain ⟨hnone, -⟩ | ⟨v, s', hv, hs, hcase⟩ := move_next hq
  · exact nomatch hnone.symm.trans hw
  obtain rfl : v = w := Option.some.inj (hv.symm.trans hw)
  have hmoved : (p.workers.set k { v with state := s' })[k]? = some { v with state := s' } :=
    List.getElem?_set_self (List.getElem?_eq_some_iff.mp hw).1
  refine ⟨{ v with state := s' }, ?_, rfl, hs⟩
  obtain ⟨-, rfl⟩ | ⟨g, pair, -, rfl⟩ := hcase
  · exact hmoved
  · rw [settle_getElem_self, hmoved]

/-- R108, R117: the others are at most asked to cancel. -/
theorem move_atMostAsked {n : Nat} {w : Worker} (hn : n ≠ k) (hw : p.workers[n]? = some w) :
    ∃ w', q.workers[n]? = some w' ∧ w.AtMostAsked p.searches n w' := by
  obtain ⟨-, rfl⟩ | ⟨v, s', -, -, hcase⟩ := move_next hq
  · exact ⟨w, hw, .inl rfl⟩
  have hkept : (p.workers.set k { v with state := s' })[n]? = some w := (List.getElem?_set_ne hn.symm).trans hw
  obtain ⟨-, rfl⟩ | ⟨g, pair, -, rfl⟩ := hcase
  · exact ⟨w, hkept, .inl rfl⟩
  · exact settle_atMostAsked g k s'.I pair { p with workers := p.workers.set k { v with state := s' } } hkept

end Move

/-- Settles O55: the event is a move, which steps its own worker and at most asks the workers of one search to cancel. -/
theorem platformStepMovesOneInstance : Obligations.PlatformStepMovesOneInstance := by
  unfold Obligations.PlatformStepMovesOneInstance
  intro p q k rest hsched hq
  have hmove := (platform_step_move hsched).symm.trans hq
  refine ⟨move_schedule hmove, (platform_step_follow hq).length_eq.symm, fun w hw => move_steps hmove hw,
    fun n w hn hw => ?_⟩
  obtain ⟨w', hw', hasked⟩ := move_atMostAsked hmove hn hw
  obtain ⟨l, hbase, hstate, hl⟩ := hasked.requests
  exact ⟨l, w', hw', hbase, hstate, hl⟩

end Sys2Proof.Machine
end

section
/-!
PROOFS. The statements of spec/70_reset_and_hazards.md: the values after reset (R119) and the reset of one worker of a platform
(R117), when a command completes (R121), R1_ALL as a sequence of R1_STEP commands (R124), and the observation of a host program
of reads (R127).
-/

namespace Sys2Proof.Machine

/-! ### Reset (R119) -/

/-- R23, R119: after reset the marks of CMD, STATUS, S and I are set, and no other. -/
theorem resetWith_written_iff (t : CTab) (r : Reg) :
    (State.resetWith t).written r = true ↔ r = .cmd ∨ r = .status ∨ (∃ n, r = .s n) ∨ ∃ n, r = .i n := by
  cases r with
  | w j | ch j => simp [State.written, State.resetWith, Marked.unwritten, -Fin.getElem_fin]
  | cmd | status | s n | i n => simp [State.written]
  | opA | opB | opC | opD | opM | res | lk0 | lk1 | lk2 => simp [State.written, State.resetWith, Marked.unwritten]

/-- Settles O22: the values are those of `State.resetWith`, and its marks are known register by register. -/
theorem resetLeavesTheSpecValues : Obligations.ResetLeavesTheSpecValues := by
  unfold Obligations.ResetLeavesTheSpecValues
  exact ⟨rfl, rfl, rfl, rfl, rfl, resetWith_written_iff Config.ctab.tab⟩

/-- R119: the host's side has no mark, so the marks after the reset of a block are those of reset. -/
theorem resetBlock_written (s : State) (r : Reg) : (resetBlock s).written r = (State.resetWith s.CTAB).written r :=
  written_setDriver _ s.driver r

/-- R117, R119: a reset acts on worker `k` alone. -/
theorem reset_getElem (k n : Nat) (p : Platform) :
    (p.reset k).workers[n]? =
      if n = k then p.workers[n]?.map fun w => { w with state := resetBlock w.state } else p.workers[n]? := by
  rw [Platform.reset, List.getElem?_modify]
  by_cases h : n = k
  · simp [h]
  · simp [h, Ne.symm h]

/-- Settles O58: the event is a reset, which puts `resetBlock` of its state into worker `k` and leaves the others. -/
theorem platformResetIsOfOneInstance : Obligations.PlatformResetIsOfOneInstance := by
  unfold Obligations.PlatformResetIsOfOneInstance
  intro p k rest hsched
  refine ⟨_, platform_step_reset hsched, rfl, List.length_modify .., fun n hn => ?_, fun w hw => ?_⟩
  · rw [reset_getElem, if_neg hn]
  · refine ⟨{ w with state := resetBlock w.state }, ?_, rfl, resetBlock_driver _, resetBlock_CTAB _, rfl, rfl, rfl, rfl,
      fun r => ?_⟩
    · rw [reset_getElem, if_pos rfl, hw, Option.map_some]
    · rw [resetBlock_written, resetWith_written_iff]

/-! ### When a command completes (R121) -/

/-- Settles O18: a command is the check of what it needs, which completes exactly when all of that is written. -/
theorem commandCompletesExactlyWhenReady : Obligations.CommandCompletesExactlyWhenReady := by
  unfold Obligations.CommandCompletesExactlyWhenReady
  intro i s _
  obtain ⟨t, hexec⟩ := exec_eq_check_needs i s
  rw [hexec]
  refine ⟨⟨?_, fun hready => ⟨t, requireWritten_of_written hready⟩⟩,
    fun hready => ⟨_, (requireWritten_of_unwritten hready).1⟩⟩
  rintro ⟨u, hnext⟩
  exact (requireWritten_next.mp hnext).1

/-! ### R1_ALL and the R1_STEP commands (R124) -/

/-- R89: what R1_STEP leaves when its word is written. -/
theorem exec_r1Step_of_written {s : State} {k : Fin 16} (h : s.W[k].written = true) :
    exec (.r1Step k) s = .next (r1StepOn s k) :=
  requireWritten_of_written (r1StepReads_written h)

/-- R124: R1_STEP commands in any order complete when all words are written: each step leaves all of them written. -/
theorem runCommands_r1Steps (ks : List (Fin 16)) {s : State} (h : ∀ j : Fin 16, s.W[j].written = true) :
    runCommands (ks.map .r1Step) s = .next (ks.foldl r1StepOn s) := by
  induction ks generalizing s with
  | nil => rfl
  | cons k ks ih =>
    have hmarks : ∀ j : Fin 16, (r1StepOn s k).W[j].written = true := fun j =>
      (Changes.r1StepOn s k).marks (.w j) (h j)
    exact runCommands_cons.mpr ⟨_, exec_r1Step_of_written (h k), ih hmarks⟩

/-- Settles O41: R1_ALL and the sixteen commands are both the fold of `r1StepOn` over the steps. -/
theorem r1AllIsSixteenR1Steps : Obligations.R1AllIsSixteenR1Steps := by
  unfold Obligations.R1AllIsSixteenR1Steps
  exact fun s hW => ⟨⟨_, exec_r1All_of_written hW, runCommands_r1Steps steps16 hW⟩, fun ks => ⟨_, runCommands_r1Steps ks hW⟩⟩

/-! ### A host program of reads (R52, R127) -/

/-- R52: a program of reads stands for those reads. -/
theorem flatMap_expand_rd (rs : List Reg) : (rs.map Statement.rd).flatMap Statement.expand = rs.map rdAccess := by
  rw [List.flatMap_map, List.map_eq_flatMap]
  rfl

/-- R127: the host starts a program when it serves that request. -/
theorem step_program {s : State} {as : List Access} {js : List Job} (hp : s.driver.pending = [])
    (hj : s.driver.jobs = .program as :: js) :
    step s = .next (s.setDriver (startProgramStep as js s.driver.serving)) := by
  simp only [step_of_idle hp, driverStep, hj]
  rfl

/-- R23: what can be seen of a register does not depend on the host's side. -/
theorem seen_setDriver (s : State) (d : Driver) : (s.setDriver d).seen = s.seen :=
  funext fun r => by rw [State.seen, written_setDriver, value_setDriver, ← State.seen]

/-- R127: the observation of a program whose accesses have all completed. -/
theorem observation_setDriver (s : State) {d : Driver} (hin : d.inProgram = true) (hp : d.pending = []) :
    (s.setDriver d).observation = some ⟨d.readLog.reverse, allRegs.map s.seen⟩ := by
  have hended : (s.setDriver d).programEnded = true := by simp [State.programEnded, hin, hp]
  rw [State.observation, if_pos hended, seen_setDriver, State.setDriver_driver]

/-- R127: from its start to its end, a program of reads of written registers puts their values alone into the read log. -/
theorem runsTo_program_reads {rs : List Reg} {js : List Job} {s : State} (hp : s.driver.pending = [])
    (hj : s.driver.jobs = .program (rs.map rdAccess) :: js) (hrs : ∀ r ∈ rs, s.written r = true) :
    s.runsTo (rs.length + 1)
      (s.setDriver { startProgramStep [] js s.driver.serving with readLog := (rs.map s.value).reverse }) := by
  have hreads := runsTo_reads (s := s.setDriver (startProgramStep (rs.map rdAccess) js s.driver.serving))
    (fun r hr => (written_setDriver s _ r).trans (hrs r hr)) (List.append_nil _).symm
  rw [funext (value_setDriver s _)] at hreads
  rw [← List.append_nil (rs.map s.value).reverse]
  exact runsTo_cons (step_program hp hj) hreads

/-- Settles O54: the request is a program of those reads, whose run leaves their values in the read log. -/
theorem programObservesItsOwnReads : Obligations.ProgramObservesItsOwnReads := by
  unfold Obligations.ProgramObservesItsOwnReads
  intro s rs hp hj hrs
  have hjobs : (s.withProgram (rs.map .rd)).driver.jobs = [.program (rs.map rdAccess)] := by
    simp [State.withProgram, hj, flatMap_expand_rd]
  have hmarks : ∀ r ∈ rs, (s.withProgram (rs.map .rd)).written r = true := fun r hr =>
    (written_setDriver s _ r).trans (hrs r hr)
  refine ⟨_, _, runsTo_program_reads hp hjobs hmarks, (observation_setDriver s rfl rfl).trans ?_⟩
  rw [List.reverse_reverse, State.withProgram, funext (value_setDriver s _)]

end Sys2Proof.Machine
end

section
/-!
PROOFS. The statement of spec/30_encoding.md section 4 about a read whose value the program states (R52).
-/

namespace Sys2Proof.Machine

/-! ### Reads with a stated value (R52) -/

/-- R52: a read with a stated value also records whether another value came. -/
theorem receive_some (d : Driver) (c v : Word) :
    d.receive (some c) v = { d with readLog := v :: d.readLog, claimFailed := d.claimFailed || (c != v) } := rfl

/-- Settles O13: the step is the read, which is checked for the mark of its register and compares its value with the stated
one. -/
theorem wrongReadClaimIsRecorded : Obligations.WrongReadClaimIsRecorded := by
  unfold Obligations.WrongReadClaimIsRecorded
  refine fun s r c rest hp => ⟨fun hw => ?_, fun hw => ?_⟩
  · rw [step_of_read hp, hostRead_of_written (by simpa using hw), receive_some, value_queued]
    rfl
  · rw [step_of_read hp, hostRead_of_unwritten (by simpa using hw)]

end Sys2Proof.Machine
end
